-- ==== Sys2Proof/Word.lean ====
section
/-! DEFINITION. The words of the part: bytes, round numbers, serials, light readings, and the names of trees and bands. -/

namespace Sys2Proof

/-- One byte of a link message, a frame, a burst or a record. -/
abbrev Byte := BitVec 8

/-- A round number, or any count the manual lets wrap at 4,294,967,296 (R9, R163). -/
abbrev Round := BitVec 32

/-- The 8-byte serial of a home. -/
abbrev Serial := BitVec 64

/-- The random token of an announcement (section 12.3, header bytes 2–5). -/
abbrev Token := BitVec 32

/-- One 12-bit reading of a light level input, 0–4,095 light units. -/
abbrev Reading := BitVec 12

/-- One of the four trees, 0–3. -/
abbrev TreeId := Fin 4

/-- One of the four tariff bands, 0–3. -/
abbrev BandId := Fin 4

end Sys2Proof
end

