-- ==== Sys2Proof/Syntax.lean ====
section
/-! DEFINITION. The commands of the part: one constructor of Instr per row of spec/opcode_table.json, with its operands. -/

namespace Sys2Proof

/-- The three agent ports (section 11). -/
inductive Port where
  | line | accounting | supervisor
deriving DecidableEq, Repr

/-- One reading of a tree's light level input, with the byte-time it was taken at, counted from the start of a round
(negative in the round before). -/
structure Sample where
  time : Int
  reading : Reading
deriving DecidableEq, Repr

/-- One burst of light as the burst receiver frames it (R75, section 12.3): the byte-time its light begins at, the
byte-time just after its last light, both counted from the start of a round, whether its check code holds, and the bytes
of its light from the burst header on (16 header bytes, then the packets). -/
structure Burst where
  start : Int
  stop : Int
  checkOk : Bool
  bytes : List Byte
deriving DecidableEq, Repr

/-- The light of a framed burst, as far as it has been heard: from its first byte-time to the byte-time just after the
last one heard. -/
structure LightSpan where
  start : Int
  stop : Int
deriving DecidableEq, Repr

/-- A request of the role table (R174), PORT RESET apart, with its arguments as the numbers the message carries.
An argument that its rule finds out of range is answered BAD_ARGUMENT, so the numbers are not limited here. -/
inductive Request where
  | startTree (tree : Nat)
  | stopTree (tree : Nat)
  | setTree (tree setting value : Nat)
  | admitHome (serial : Serial) (tree c p w : Nat)
  | strike (serial : Serial)
  | setAdmissionMode (mode : Nat)
  | callsOn (tree : Nat)
  | callsOff (tree : Nat)
  | withdraw (tree tag : Nat)
  | setAllocations (aLine aAccounting aSupervisor : Nat)
  | stall (port : Nat)
  | unstall (port : Nat)
  | setRoute (kind port : Nat)
  | readTree (tree : Nat)
  | setContract (tree tag c p w : Nat)
  | switchBand (band : Nat)
  | closeInterval (tree : Nat)
  | takeRecords (count : Nat)
  | setWatch (watch tree tag direction band threshold action : Nat)
  | clearWatch (watch : Nat)
  | uncap (tree tag : Nat)
  | readMeters (tree tag : Nat)
  | setJournalMark (mark : Nat)
  | setLightLimit (tree value scale : Nat)
  | setConfirm (tree m v mOver : Nat)
  | hunt (tree : Nat)
  | abandon (tree : Nat)
  | fence (tree tag : Nat)
  | release (tree tag : Nat)
  | readLight (tree : Nat)
  | readRoster (tree firstTag count : Nat)
  | fetchNotices (count : Nat)
  | setThreshold (level : Nat)
  | setHoldLimit (limit : Nat)
deriving DecidableEq, Repr

/-- Why a whole message is not a request of the part (R182, R174): its answer is BAD_ARGUMENT in every case. -/
inductive Malformed where
  | shortLength   -- the length field is below 2
  | longLength    -- the length field is above 1,022
  | unknownName   -- no request has the name code
  | wrongSize     -- the arguments are shorter or longer than the name requires
deriving DecidableEq, Repr

/-- What a whole message asks for. -/
inductive Ask where
  | request (r : Request)
  | portReset
  | malformed (why : Malformed)
deriving DecidableEq, Repr

/-- A whole message as a port handles it: its sequence byte and what it asks for. -/
structure Arrived where
  seq : Byte
  ask : Ask
deriving DecidableEq, Repr

/-- The commands: one constructor per row of the table.
A request row carries the port it arrives at, its sequence byte and its arguments (log entry 2). -/
inductive Instr where
  | powerOnReset
  | requestArrival (port : Port) (message : List Byte)
  | waitingRequestTaken (port : Port)
  | portReset (port : Port) (seq : Byte)
  | startTree (port : Port) (seq : Byte) (tree : Nat)
  | stopTree (port : Port) (seq : Byte) (tree : Nat)
  | setTree (port : Port) (seq : Byte) (tree setting value : Nat)
  | admitHome (port : Port) (seq : Byte) (serial : Serial) (tree c p w : Nat)
  | strike (port : Port) (seq : Byte) (serial : Serial)
  | setAdmissionMode (port : Port) (seq : Byte) (mode : Nat)
  | callsOn (port : Port) (seq : Byte) (tree : Nat)
  | callsOff (port : Port) (seq : Byte) (tree : Nat)
  | withdraw (port : Port) (seq : Byte) (tree tag : Nat)
  | setAllocations (port : Port) (seq : Byte) (aLine aAccounting aSupervisor : Nat)
  | stall (port : Port) (seq : Byte) (named : Nat)
  | unstall (port : Port) (seq : Byte) (named : Nat)
  | setRoute (port : Port) (seq : Byte) (kind named : Nat)
  | readTree (port : Port) (seq : Byte) (tree : Nat)
  | setContract (port : Port) (seq : Byte) (tree tag c p w : Nat)
  | switchBand (port : Port) (seq : Byte) (band : Nat)
  | closeInterval (port : Port) (seq : Byte) (tree : Nat)
  | takeRecords (port : Port) (seq : Byte) (count : Nat)
  | setWatch (port : Port) (seq : Byte) (watch tree tag direction band threshold action : Nat)
  | clearWatch (port : Port) (seq : Byte) (watch : Nat)
  | uncap (port : Port) (seq : Byte) (tree tag : Nat)
  | readMeters (port : Port) (seq : Byte) (tree tag : Nat)
  | setJournalMark (port : Port) (seq : Byte) (mark : Nat)
  | setLightLimit (port : Port) (seq : Byte) (tree value scale : Nat)
  | setConfirm (port : Port) (seq : Byte) (tree m v mOver : Nat)
  | hunt (port : Port) (seq : Byte) (tree : Nat)
  | abandon (port : Port) (seq : Byte) (tree : Nat)
  | fence (port : Port) (seq : Byte) (tree tag : Nat)
  | release (port : Port) (seq : Byte) (tree tag : Nat)
  | readLight (port : Port) (seq : Byte) (tree : Nat)
  | readRoster (port : Port) (seq : Byte) (tree firstTag count : Nat)
  | fetchNotices (port : Port) (seq : Byte) (count : Nat)
  | setThreshold (port : Port) (seq : Byte) (level : Nat)
  | setHoldLimit (port : Port) (seq : Byte) (limit : Nat)
  | roundStart
  | cut
  | heldRequestEntry (port : Port)
  | heldTooLong (port : Port)
  | callScheduleDue (tree : TreeId)
  | darkCadenceDue (tree : TreeId)
  | darkWindowEnd (tree : TreeId) (samples : List Sample)
  | callWindowEnd (tree : TreeId) (light : List Burst)
  | probeWindowEnd (tree : TreeId) (light : List Burst)
  | burstEnd (tree : TreeId) (round : Round) (burst : Burst)
  | burstRunOn (tree : TreeId) (round : Round) (start : Int)
  | grantEnd (tree : TreeId) (round : Round) (tag : Nat) (light : List LightSpan)
  | guardEnd (tree : TreeId) (round : Round) (tag : Nat) (begins : List Int) (samples : List Sample)
  | idleStretchEnd (tree : TreeId) (samples : List Sample)
  | packetOffered (tree : TreeId) (tag : Nat) (payload : List Byte)
  | heldPacketTaken
  | packetDelivered
deriving DecidableEq, Repr

/-- The request that a request row's command carries, with its port and sequence byte; none for the other rows. -/
def Instr.request? : Instr → Option (Port × Byte × Request)
  | .startTree p q tree => some (p, q, .startTree tree)
  | .stopTree p q tree => some (p, q, .stopTree tree)
  | .setTree p q tree setting value => some (p, q, .setTree tree setting value)
  | .admitHome p q serial tree c pk w => some (p, q, .admitHome serial tree c pk w)
  | .strike p q serial => some (p, q, .strike serial)
  | .setAdmissionMode p q mode => some (p, q, .setAdmissionMode mode)
  | .callsOn p q tree => some (p, q, .callsOn tree)
  | .callsOff p q tree => some (p, q, .callsOff tree)
  | .withdraw p q tree tag => some (p, q, .withdraw tree tag)
  | .setAllocations p q l a v => some (p, q, .setAllocations l a v)
  | .stall p q named => some (p, q, .stall named)
  | .unstall p q named => some (p, q, .unstall named)
  | .setRoute p q kind named => some (p, q, .setRoute kind named)
  | .readTree p q tree => some (p, q, .readTree tree)
  | .setContract p q tree tag c pk w => some (p, q, .setContract tree tag c pk w)
  | .switchBand p q band => some (p, q, .switchBand band)
  | .closeInterval p q tree => some (p, q, .closeInterval tree)
  | .takeRecords p q count => some (p, q, .takeRecords count)
  | .setWatch p q watch tree tag direction band threshold action =>
    some (p, q, .setWatch watch tree tag direction band threshold action)
  | .clearWatch p q watch => some (p, q, .clearWatch watch)
  | .uncap p q tree tag => some (p, q, .uncap tree tag)
  | .readMeters p q tree tag => some (p, q, .readMeters tree tag)
  | .setJournalMark p q mark => some (p, q, .setJournalMark mark)
  | .setLightLimit p q tree value scale => some (p, q, .setLightLimit tree value scale)
  | .setConfirm p q tree m v mOver => some (p, q, .setConfirm tree m v mOver)
  | .hunt p q tree => some (p, q, .hunt tree)
  | .abandon p q tree => some (p, q, .abandon tree)
  | .fence p q tree tag => some (p, q, .fence tree tag)
  | .release p q tree tag => some (p, q, .release tree tag)
  | .readLight p q tree => some (p, q, .readLight tree)
  | .readRoster p q tree firstTag count => some (p, q, .readRoster tree firstTag count)
  | .fetchNotices p q count => some (p, q, .fetchNotices count)
  | .setThreshold p q level => some (p, q, .setThreshold level)
  | .setHoldLimit p q limit => some (p, q, .setHoldLimit limit)
  | .powerOnReset => none
  | .requestArrival _ _ => none
  | .waitingRequestTaken _ => none
  | .portReset _ _ => none
  | .roundStart => none
  | .cut => none
  | .heldRequestEntry _ => none
  | .heldTooLong _ => none
  | .callScheduleDue _ => none
  | .darkCadenceDue _ => none
  | .darkWindowEnd _ _ => none
  | .callWindowEnd _ _ => none
  | .probeWindowEnd _ _ => none
  | .burstEnd _ _ _ => none
  | .burstRunOn _ _ _ => none
  | .grantEnd _ _ _ _ => none
  | .guardEnd _ _ _ _ _ => none
  | .idleStretchEnd _ _ => none
  | .packetOffered _ _ _ => none
  | .heldPacketTaken => none
  | .packetDelivered => none

end Sys2Proof
end

