-- ==== Sys2Proof/Decode.lean ====
section
/-! DEFINITION. Request messages as bytes (section 12.1, R182, R183): the decoder, total on any bytes, and the encoder;
and decodeTableWord, which answers none because no row of the table gives bits. -/

namespace Sys2Proof

/-- A number in `width` bytes, most significant byte first (section 12). -/
def beBytes : (width value : Nat) → List Byte
  | 0, _ => []
  | width + 1, value => BitVec.ofNat 8 (value / 256 ^ width) :: beBytes width value

/-- The number that bytes hold, most significant byte first (section 12). -/
def beNat (bytes : List Byte) : Nat :=
  bytes.foldl (fun acc b => acc * 256 + b.toNat) 0

/-- The request name code (section 12.1): by port, in the order of the role table. -/
def Request.code : Request → Nat
  | .startTree _ => 16
  | .stopTree _ => 17
  | .setTree _ _ _ => 18
  | .admitHome _ _ _ _ _ => 19
  | .strike _ => 20
  | .setAdmissionMode _ => 21
  | .callsOn _ => 22
  | .callsOff _ => 23
  | .withdraw _ _ => 24
  | .setAllocations _ _ _ => 25
  | .stall _ => 26
  | .unstall _ => 27
  | .setRoute _ _ => 28
  | .readTree _ => 29
  | .setContract _ _ _ _ _ => 32
  | .switchBand _ => 33
  | .closeInterval _ => 34
  | .takeRecords _ => 35
  | .setWatch _ _ _ _ _ _ _ => 36
  | .clearWatch _ => 37
  | .uncap _ _ => 38
  | .readMeters _ _ => 39
  | .setJournalMark _ => 40
  | .setLightLimit _ _ _ => 48
  | .setConfirm _ _ _ _ => 49
  | .hunt _ => 50
  | .abandon _ => 51
  | .fence _ _ => 52
  | .release _ _ => 53
  | .readLight _ => 54
  | .readRoster _ _ _ => 64
  | .fetchNotices _ => 65
  | .setThreshold _ => 66
  | .setHoldLimit _ => 67

/-- The name code of PORT RESET (section 12.1). -/
def portResetCode : Nat := 68

/-- The arguments of a request in the order its rule names them, each as (width in bytes, value): every argument takes
the width its range requires (section 12.1; log entry 10). -/
def Request.fields : Request → List (Nat × Nat)
  | .startTree tree => [(1, tree)]
  | .stopTree tree => [(1, tree)]
  | .setTree tree setting value => [(1, tree), (1, setting), (3, value)]
  | .admitHome serial tree c p w => [(8, serial.toNat), (1, tree), (2, c), (2, p), (1, w)]
  | .strike serial => [(8, serial.toNat)]
  | .setAdmissionMode mode => [(1, mode)]
  | .callsOn tree => [(1, tree)]
  | .callsOff tree => [(1, tree)]
  | .withdraw tree tag => [(1, tree), (1, tag)]
  | .setAllocations l a s => [(1, l), (1, a), (1, s)]
  | .stall port => [(1, port)]
  | .unstall port => [(1, port)]
  | .setRoute kind port => [(1, kind), (1, port)]
  | .readTree tree => [(1, tree)]
  | .setContract tree tag c p w => [(1, tree), (1, tag), (2, c), (2, p), (1, w)]
  | .switchBand band => [(1, band)]
  | .closeInterval tree => [(1, tree)]
  | .takeRecords count => [(1, count)]
  | .setWatch watch tree tag direction band threshold action =>
    [(1, watch), (1, tree), (1, tag), (1, direction), (1, band), (6, threshold), (1, action)]
  | .clearWatch watch => [(1, watch)]
  | .uncap tree tag => [(1, tree), (1, tag)]
  | .readMeters tree tag => [(1, tree), (1, tag)]
  | .setJournalMark mark => [(2, mark)]
  | .setLightLimit tree value scale => [(1, tree), (1, value), (1, scale)]
  | .setConfirm tree m v mOver => [(1, tree), (1, m), (1, v), (1, mOver)]
  | .hunt tree => [(1, tree)]
  | .abandon tree => [(1, tree)]
  | .fence tree tag => [(1, tree), (1, tag)]
  | .release tree tag => [(1, tree), (1, tag)]
  | .readLight tree => [(1, tree)]
  | .readRoster tree firstTag count => [(1, tree), (1, firstTag), (1, count)]
  | .fetchNotices count => [(1, count)]
  | .setThreshold level => [(1, level)]
  | .setHoldLimit limit => [(2, limit)]

/-- The widths in bytes of the arguments that a name code requires; none where no request has the code. -/
def argWidths (code : Nat) : Option (List Nat) :=
  match code with
  | 16 => some [1]
  | 17 => some [1]
  | 18 => some [1, 1, 3]
  | 19 => some [8, 1, 2, 2, 1]
  | 20 => some [8]
  | 21 => some [1]
  | 22 => some [1]
  | 23 => some [1]
  | 24 => some [1, 1]
  | 25 => some [1, 1, 1]
  | 26 => some [1]
  | 27 => some [1]
  | 28 => some [1, 1]
  | 29 => some [1]
  | 32 => some [1, 1, 2, 2, 1]
  | 33 => some [1]
  | 34 => some [1]
  | 35 => some [1]
  | 36 => some [1, 1, 1, 1, 1, 6, 1]
  | 37 => some [1]
  | 38 => some [1, 1]
  | 39 => some [1, 1]
  | 40 => some [2]
  | 48 => some [1, 1, 1]
  | 49 => some [1, 1, 1, 1]
  | 50 => some [1]
  | 51 => some [1]
  | 52 => some [1, 1]
  | 53 => some [1, 1]
  | 54 => some [1]
  | 64 => some [1, 1, 1]
  | 65 => some [1]
  | 66 => some [1]
  | 67 => some [2]
  | _ => none

/-- The request with a name code and the values of its arguments. -/
def buildRequest (code : Nat) (values : List Nat) : Option Request :=
  match code, values with
  | 16, [tree] => some (.startTree tree)
  | 17, [tree] => some (.stopTree tree)
  | 18, [tree, setting, value] => some (.setTree tree setting value)
  | 19, [serial, tree, c, p, w] => some (.admitHome (BitVec.ofNat 64 serial) tree c p w)
  | 20, [serial] => some (.strike (BitVec.ofNat 64 serial))
  | 21, [mode] => some (.setAdmissionMode mode)
  | 22, [tree] => some (.callsOn tree)
  | 23, [tree] => some (.callsOff tree)
  | 24, [tree, tag] => some (.withdraw tree tag)
  | 25, [l, a, s] => some (.setAllocations l a s)
  | 26, [port] => some (.stall port)
  | 27, [port] => some (.unstall port)
  | 28, [kind, port] => some (.setRoute kind port)
  | 29, [tree] => some (.readTree tree)
  | 32, [tree, tag, c, p, w] => some (.setContract tree tag c p w)
  | 33, [band] => some (.switchBand band)
  | 34, [tree] => some (.closeInterval tree)
  | 35, [count] => some (.takeRecords count)
  | 36, [watch, tree, tag, direction, band, threshold, action] =>
    some (.setWatch watch tree tag direction band threshold action)
  | 37, [watch] => some (.clearWatch watch)
  | 38, [tree, tag] => some (.uncap tree tag)
  | 39, [tree, tag] => some (.readMeters tree tag)
  | 40, [mark] => some (.setJournalMark mark)
  | 48, [tree, value, scale] => some (.setLightLimit tree value scale)
  | 49, [tree, m, v, mOver] => some (.setConfirm tree m v mOver)
  | 50, [tree] => some (.hunt tree)
  | 51, [tree] => some (.abandon tree)
  | 52, [tree, tag] => some (.fence tree tag)
  | 53, [tree, tag] => some (.release tree tag)
  | 54, [tree] => some (.readLight tree)
  | 64, [tree, firstTag, count] => some (.readRoster tree firstTag count)
  | 65, [count] => some (.fetchNotices count)
  | 66, [level] => some (.setThreshold level)
  | 67, [limit] => some (.setHoldLimit limit)
  | _, _ => none

/-- Cuts argument bytes into fields of the given widths; none where the bytes are shorter or longer than the fields. -/
def splitFields : (widths : List Nat) → List Byte → Option (List Nat)
  | [], [] => some []
  | [], _ :: _ => none
  | width :: widths, bytes =>
    if bytes.length < width then none
    else (splitFields widths (bytes.drop width)).map (beNat (bytes.take width) :: ·)

/-- What a name code and argument bytes ask for (R182, R174). -/
def decodeArgs (code : Nat) (args : List Byte) : Ask :=
  match argWidths code with
  | none => .malformed .unknownName
  | some widths =>
    match splitFields widths args with
    | none => .malformed .wrongSize
    | some values =>
      match buildRequest code values with
      | none => .malformed .wrongSize
      | some r => .request r

/-- The decoder of request messages (section 12.1, R182), total on any bytes.
Bytes 0–1 are the length from offset 2; none where the bytes the length names have not all arrived (a link error leaves
no request). A PORT RESET is recognised by its name code whatever its sequence byte and length. A length below 2 has
the sequence byte 0 in its answer, PORT_BUSY included (DESIGN CHOICE, log entry 33). Bytes beyond the length are not of this
message (log entry 9). -/
def decodeMessage : List Byte → Option Arrived
  | hi :: lo :: rest =>
    let len := beNat [hi, lo]
    if rest.length < len then none
    else
      let body := rest.take len
      match body with
      | [] => some { seq := 0, ask := .malformed .shortLength }
      | [name] =>
        if name.toNat = portResetCode then some { seq := 0, ask := .portReset }
        else some { seq := 0, ask := .malformed .shortLength }
      | name :: seq :: args =>
        if name.toNat = portResetCode then some { seq := seq, ask := .portReset }
        else if 1022 < len then some { seq := seq, ask := .malformed .longLength }
        else some { seq := seq, ask := decodeArgs name.toNat args }
  | _ => none

/-- The argument bytes of a request, each argument at its width. -/
def Request.argBytes (r : Request) : List Byte :=
  r.fields.flatMap fun f => beBytes f.1 f.2

/-- The encoder of request messages (section 12.1): length, name code, sequence byte, arguments. -/
def encodeRequest (seq : Byte) (r : Request) : List Byte :=
  beBytes 2 (r.argBytes.length + 2) ++ [BitVec.ofNat 8 r.code, seq] ++ r.argBytes

/-- The message of a PORT RESET. -/
def encodePortReset (seq : Byte) : List Byte :=
  beBytes 2 2 ++ [BitVec.ofNat 8 portResetCode, seq]

/-! ## Upstream bursts (section 12.3, R185) -/

/-- A byte of a burst, counted from the burst header. -/
def Burst.byte (b : Burst) (i : Nat) : Byte := b.bytes.getD i 0

/-- Some bytes of a burst as a number, most significant byte first. -/
def Burst.field (b : Burst) (offset width : Nat) : Nat :=
  beNat ((List.range width).map fun i => b.byte (offset + i))

/-- Header byte 0: the tag. -/
def Burst.tag (b : Burst) : Nat := (b.byte 0).toNat
/-- Header byte 1: the type, 1 data, poll or greeting, 2 announcement, 3 echo. -/
def Burst.type (b : Burst) : Nat := (b.byte 1).toNat
/-- Header bytes 2–5: the backlog report. -/
def Burst.report (b : Burst) : Nat := b.field 2 4
/-- Header bytes 2–5 of an announcement: the random token. -/
def Burst.token (b : Burst) : Token := BitVec.ofNat 32 (b.field 2 4)
/-- Header bytes 6–13: the serial of an announcement or an echo. -/
def Burst.serial (b : Burst) : Serial := BitVec.ofNat 64 (b.field 6 8)
/-- Header bytes 14–15: the payload bytes used, packet heads included. -/
def Burst.used (b : Burst) : Nat := b.field 14 2

/-- Reads the packets of a burst: each a 2-byte length, then its bytes; a length of 0 or the end of the bytes ends them.
None where a packet overruns the bytes (R76, R185). `fuel` bounds the number of packets. -/
def readPackets : (fuel : Nat) → List Byte → Option (List (List Byte))
  | _, [] => some []
  | 0, _ => none
  | _, [_] => none
  | fuel + 1, hi :: lo :: rest =>
    let len := beNat [hi, lo]
    if len = 0 then some []
    else if rest.length < len then none
    else (readPackets fuel (rest.drop len)).map (rest.take len :: ·)

/-- The packets of a burst within its bytes used; none where their lengths overrun the bytes used (R185). Where the header's bytes
used exceed what the burst carries, packets are read as far as it has bytes (DESIGN CHOICE, log entry 28). -/
def Burst.packets (b : Burst) : Option (List (List Byte)) :=
  readPackets b.used ((b.bytes.drop 16).take b.used)

/-- The command that a word of the table's bits spells: none, because no row of the table gives bits. -/
def decodeTableWord (_nbits _w : Nat) : Option Instr := none

end Sys2Proof
end

