-- ==== Sys2Proof/Config.lean ====
section
/-! DEFINITION. What the manual leaves open as a value: constants without a body, so that nothing can be proved of them. -/

namespace Sys2Proof

/-- R9 calls the later of two round numbers the one reached from the other by the smaller forward distance.
At a distance of exactly 2,147,483,648 the two distances are equal and the rule names neither: whether the first of
two such rounds counts as the later one is this free value (log entry 6). -/
opaque Config.laterAtHalfTurn (a b : Round) : Bool

end Sys2Proof
end

