-- ==== Sys2Proof/Machine/Store.lean ====
section
/-! DEFINITION. The containers State is made of: stores by key in one canonical form, and one value per tree, band or port. -/

namespace Sys2Proof.Machine

/-- A store by key: (key, value) pairs. A key that is not listed holds the store's empty value (VACANT, closed, EMPTY). -/
abbrev Store (α : Type) := List (Nat × α)

/-- The canonical form: keys strictly rising, so that equal stores are equal lists. -/
abbrev Store.Wf {α : Type} (st : Store α) : Prop := st.Pairwise (fun a b => a.1 < b.1)

/-- The value a key holds, none where it is not listed. -/
def Store.read {α : Type} (k : Nat) : Store α → Option α
  | [] => none
  | (k', v) :: rest => if k = k' then some v else Store.read k rest

/-- Gives a key a value, keeping the canonical form. -/
def Store.write {α : Type} (k : Nat) (v : α) : Store α → Store α
  | [] => [(k, v)]
  | (k', v') :: rest =>
    if k < k' then (k, v) :: (k', v') :: rest
    else if k = k' then (k, v) :: rest
    else (k', v') :: Store.write k v rest

/-- Takes a key out. -/
def Store.erase {α : Type} (k : Nat) (st : Store α) : Store α :=
  st.filter fun e => e.1 ≠ k

/-- Changes the value a key holds; a key that is not listed stays so. -/
def Store.modify {α : Type} (k : Nat) (f : α → α) (st : Store α) : Store α :=
  st.map fun e => if e.1 = k then (e.1, f e.2) else e

/-- One value for each of the four trees, or for each of the four bands. -/
structure Quad (α : Type) where
  q0 : α
  q1 : α
  q2 : α
  q3 : α
deriving DecidableEq, Repr

/-- The value of one tree or band. -/
def Quad.get {α : Type} (q : Quad α) (i : Fin 4) : α :=
  match i with
  | 0 => q.q0
  | 1 => q.q1
  | 2 => q.q2
  | 3 => q.q3

/-- Gives one tree or band a value. -/
def Quad.set {α : Type} (q : Quad α) (i : Fin 4) (v : α) : Quad α :=
  match i with
  | 0 => { q with q0 := v }
  | 1 => { q with q1 := v }
  | 2 => { q with q2 := v }
  | 3 => { q with q3 := v }

/-- The same value for all four. -/
def Quad.all {α : Type} (v : α) : Quad α := { q0 := v, q1 := v, q2 := v, q3 := v }

/-- The four values in ascending order. -/
def Quad.toList {α : Type} (q : Quad α) : List α := [q.q0, q.q1, q.q2, q.q3]

/-- The four trees, or bands, in ascending order. -/
def allFour : List (Fin 4) := [0, 1, 2, 3]

/-- One value for each port. -/
structure Trio (α : Type) where
  line : α
  accounting : α
  supervisor : α
deriving DecidableEq, Repr

/-- The value of one port. -/
def Trio.get {α : Type} (t : Trio α) (p : Port) : α :=
  match p with
  | .line => t.line
  | .accounting => t.accounting
  | .supervisor => t.supervisor

/-- Gives one port a value. -/
def Trio.set {α : Type} (t : Trio α) (p : Port) (v : α) : Trio α :=
  match p with
  | .line => { t with line := v }
  | .accounting => { t with accounting := v }
  | .supervisor => { t with supervisor := v }

/-- The three ports, in the order the manual lists them. -/
def allPorts : List Port := [.line, .accounting, .supervisor]

end Sys2Proof.Machine
end

