-- ==== Sys2Proof/Machine/State.lean ====
section
/-! DEFINITION. Everything the manual gives the part to hold, as plain data, and its value after reset. -/

namespace Sys2Proof.Machine

/-! ## The home roster (chapter 2) -/

/-- A contract: committed rate c, peak p and weight w (section 2.2). -/
structure Contract where
  c : Nat
  p : Nat
  w : Nat
deriving DecidableEq, Repr

/-- The set of owed orders of an entry, each kind at most once (R65). -/
structure Owed where
  fence : Bool
  release : Bool
  drop : Bool
  hush : Bool
  wake : Bool
  assign : Bool
  probe : Bool
  adjust : Bool
deriving DecidableEq, Repr

/-- The eight kinds of order (R64). -/
inductive OrderKind where
  | fence | release | drop | hush | wake | assign | probe | adjust
deriving DecidableEq, Repr

/-- The seven entry states (section 2.3). -/
inductive EntryState where
  | vacant | heard | timed | active | silent | fenced | leaving
deriving DecidableEq, Repr

/-- The fields of a HEARD entry. The re-enrolling mark stands exactly while `keptDelay` holds the e the entry kept (R24). -/
structure Heard where
  heardRound : Round
  tries : Nat
  keptDelay : Option Nat
deriving DecidableEq, Repr

/-- The fields of a TIMED entry. The re-enrolling mark stands exactly while `former` holds the former delay (R25). -/
structure Timed where
  e : Nat
  former : Option Nat
  misses : Nat
  hushed : Bool
deriving DecidableEq, Repr

/-- The fields of an ACTIVE entry. In the overrun history an overrun is true and a clean burst false, oldest first. -/
structure Active where
  e : Nat
  missCount : Nat
  need : Nat
  credit : Nat
  lastGranted : Option Round
  history : List Bool
  hushed : Bool
deriving DecidableEq, Repr

/-- The fields of a SILENT entry. -/
structure Silent where
  e : Nat
  hushed : Bool
deriving DecidableEq, Repr

/-- The fields of a FENCED entry. -/
structure Fenced where
  e : Nat
  need : Nat
  credit : Nat
  lastGranted : Option Round
  history : List Bool
  hushed : Bool
  trial : Bool
deriving DecidableEq, Repr

/-- The state of an entry with the fields present in that state (section 2.2, R18).
A LEAVING entry keeps the e it held: none where it was a HEARD entry that held none (R31; log entry 13). -/
inductive Body where
  | heard (f : Heard)
  | timed (f : Timed)
  | active (f : Active)
  | silent (f : Silent)
  | fenced (f : Fenced)
  | leaving (e : Option Nat)
deriving DecidableEq, Repr

/-- A roster entry that is not VACANT (section 2.2): the fields of every such state, and the body of its state. -/
structure Entry where
  serial : Serial
  occupied : Round
  contract : Contract
  booked : Nat
  capped : Bool
  owed : Owed
  body : Body
deriving DecidableEq, Repr

/-- A record of the admission list; no tree is ANY (R35). -/
structure Admission where
  serial : Serial
  tree : Option TreeId
  contract : Contract
deriving DecidableEq, Repr

/-! ## Trees, plans and reception (chapters 1, 3, 4, 5, 6) -/

/-- The four tree states (section 1.1). -/
inductive TreeState where
  | down | settling | running | faulted
deriving DecidableEq, Repr

/-- The settings SET TREE carries (section 1.5). -/
structure Settings where
  target : Nat        -- T
  nearBound : Nat     -- N
  overhead : Nat      -- H
  minBurst : Nat      -- m
  wCall : Nat
  kCall : Nat
  wDark : Nat
  kDark : Nat
  poll : Nat          -- P
  silence : Nat       -- S
  defaultPeak : Nat
deriving DecidableEq, Repr

/-- The settings by name. -/
inductive SettingName where
  | target | nearBound | overhead | minBurst | wCall | kCall | wDark | kDark | poll | silence | defaultPeak
deriving DecidableEq, Repr

/-- Grant kinds (R105). -/
inductive GrantKind where
  | data | greeting | poll
deriving DecidableEq, Repr

/-- A grant of a plan record (R106). -/
structure Grant where
  tag : Nat
  occupied : Round
  start : Nat
  payload : Nat
  length : Nat
  kind : GrantKind
deriving DecidableEq, Repr

/-- The kind of a window the enrolment engine offers: CALL, or PROBE of one tag (R44). -/
inductive WindowKind where
  | call
  | probe (tag : Nat)
deriving DecidableEq, Repr

/-- The call or probe window of a plan (R106). -/
structure PlanWindow where
  kind : WindowKind
  opening : Nat
  width : Nat
deriving DecidableEq, Repr

/-- The entry mark a plan record holds for a slot; a slot with the mark "none" is not listed (R106). -/
inductive EntryMark where
  | inService | hushed | fenced
deriving DecidableEq, Repr

/-- A plan record (R106). `settlingNo` is 1 to 16 for the plan of a settling window and 0 for every other plan (R3). -/
structure PlanRecord where
  round : Round
  settling : Bool
  settlingNo : Nat
  dark : Option Nat
  window : Option PlanWindow
  grants : List Grant
  marks : Store EntryMark
deriving DecidableEq, Repr

/-- The kind of a window record; a PROBE record holds the probed entry's tag, serial and occupied round (R41). -/
inductive RecordKind where
  | call
  | probe (tag : Nat) (serial : Serial) (occupied : Round)
deriving DecidableEq, Repr

/-- A window record of the enrolment engine (R41). -/
structure WindowRecord where
  round : Round
  kind : RecordKind
  opening : Nat
  width : Nat
deriving DecidableEq, Repr

/-- What the enrolment engine answered for the plan being built: no window, or a window of a kind (R43, R44). -/
inductive WindowAnswer where
  | noWindow
  | window (kind : WindowKind)
deriving DecidableEq, Repr

/-- The enrolment engine of a tree (R41). `bookedProbe` is the PROBE booked for the enrolment place of a frame: the
frame's number and the probed tag (R46). `chosen` is the current window kind: what the engine answered for the plan
being built, none between builds. -/
structure Engine where
  calls : Bool
  count : Nat
  deferred : Bool
  windows : List WindowRecord
  collisions : Nat
  bookedProbe : Option (Round × Nat)
  chosen : Option WindowAnswer
deriving DecidableEq, Repr

/-- An order in its place of a frame, with what it carries (R64). -/
inductive OrderPlace where
  | fence (serial : Serial) (tag : Nat)
  | drop (serial : Serial) (tag : Nat)
  | hush (tags : List Nat)
  | wake (tags : List Nat)
  | release (tag : Nat)
  | assign (serial : Serial) (tag e : Nat)
  | probe (serial : Serial) (tag : Nat)
  | adjust (tag e : Nat)
deriving DecidableEq, Repr

/-- A downstream packet of one tree's buffer: its tag and its payload (R70). -/
structure DownPacket where
  tag : Nat
  payload : List Byte
deriving DecidableEq, Repr

/-- A frame (R63): the plan it carries, its window notice, its order places and its payload. -/
structure Frame where
  settling : Bool
  round : Round
  window : Option PlanWindow
  dark : Option Nat
  grants : List Grant
  enrolment : Option OrderPlace
  general : List OrderPlace
  payload : List DownPacket
deriving DecidableEq, Repr

/-- The downstream framer of a tree: its payload buffer, oldest packet first, and the frame it is sending (R63, R70). -/
structure Framer where
  buffer : List DownPacket
  frame : Option Frame
deriving DecidableEq, Repr

/-- How far the judgement of one grant has come (R76): a burst that began in its acceptance span ended with another tag
or type; such a burst still shone when the grant ended; the grant's burst is judged accepted or damaged, with the
byte-time its own light ended and whether its guard is still to be judged; or the grant was misplaced or missed. -/
inductive GrantMark where
  | foreign
  | burning
  | heard (accepted : Bool) (lightEnd : Int) (ranOn : Bool) (guardOpen : Bool)
  | misplaced
  | missed
deriving DecidableEq, Repr

/-- The last grant of the round before, where it ended with quantum 1,874, or with quantum 1,873 and its guard, which ends with
the round, is still to be judged: its round, the grant, and its mark (R69, R87). -/
structure Carried where
  round : Round
  grant : Grant
  mark : Option GrantMark
deriving DecidableEq, Repr

/-- The idle stretch of the round before whose level is still to be taken at the instant the round ended: its round and its
first quantum (R89, R69). -/
structure CarriedIdle where
  round : Round
  first : Nat
deriving DecidableEq, Repr

/-- The upstream checker of a tree: the marks of the grants of the round in progress by tag, the grant and the idle stretch
carried over from the round before, whether the rest of the round is not judged (R4, R6), and which of the round's dark
window and idle stretch have been judged. -/
structure Checker where
  muted : Bool
  marks : Store GrantMark
  carried : Option Carried
  carriedIdle : Option CarriedIdle
  darkTaken : Bool
  idleTaken : Bool
deriving DecidableEq, Repr

/-! ## Light supervision (chapter 8) -/

/-- The phase of a hunt with the fields that phase has (R123). -/
inductive HuntPhase where
  | search (group : List Nat)
  | trial (candidate : Nat)
  | allQuiet (candidate : Nat) (quiet : List Nat)
deriving DecidableEq, Repr

/-- The hunt record (R123). -/
structure Hunt where
  phase : HuntPhase
  suspects : List Nat
  effective : Option Round
  darkRun : Nat
  steps : Nat
  started : Round
deriving DecidableEq, Repr

/-- The suspicion state; the hunt record is present in HUNT (R123). -/
inductive Suspicion where
  | clear
  | watch
  | hunt (h : Hunt)
  | unresolved
deriving DecidableEq, Repr

/-- The suspicion state by name. -/
inductive SuspicionName where
  | clear | watch | hunt | unresolved
deriving DecidableEq, Repr

/-- How a hunt ended (R123). -/
inductive HuntReason where
  | contained | foreign | elusive | empty | abandoned
deriving DecidableEq, Repr

/-- The last hunt result (R123). -/
structure HuntResult where
  reason : HuntReason
  round : Round
  tag : Option Nat
deriving DecidableEq, Repr

/-- The light supervisor of a tree (R123). In the observation list a HIT is true and a LOW false, oldest first.
`darkAnswer` is the answer given to the planner for the plan being built (R126), none between builds. -/
structure Light where
  baseline : Nat
  limitValue : Nat
  limitScale : Nat
  m : Nat
  v : Nat
  mOver : Nat
  suspicion : Suspicion
  observations : List Bool
  cadence : Nat
  darkAnswer : Option Bool
  strays : Nat
  lastDark : Option (Nat × Round)
  lastHunt : Option HuntResult
deriving DecidableEq, Repr

/-- A tree: its state, its settings, and the blocks that exist once per tree. -/
structure Tree where
  phase : TreeState
  settings : Settings
  settlingCount : Nat
  lead : Nat
  bookedCall : Nat
  bookedDark : Nat
  plans : List PlanRecord
  engine : Engine
  light : Light
  framer : Framer
  checker : Checker
deriving DecidableEq, Repr

/-! ## Staged changes (chapter 7) -/

/-- A change request with its target and values (R111); no tree in a CLOSE is ALL. -/
inductive Change where
  | contract (tree : TreeId) (tag : Nat) (value : Contract)
  | treeSetting (tree : TreeId) (setting : SettingName) (value : Nat)
  | withdraw (tree : TreeId) (tag : Nat)
  | fence (tree : TreeId) (tag : Nat)
  | release (tree : TreeId) (tag : Nat)
  | uncap (tree : TreeId) (tag : Nat)
  | switchBand (band : BandId)
  | closeInterval (tree : Option TreeId)
deriving DecidableEq, Repr

/-- An entry of the change queue (R111). `voided` is set when a WITHDRAW carried out before it in the pass makes it void
(R115). -/
structure ChangeEntry where
  origin : Port
  change : Change
  roundTaken : Round
  voided : Bool
deriving DecidableEq, Repr

/-- A change request held in a port's in-progress slot (R117): the sequence byte its answer will carry, and a ticket that
tells which of two held requests was taken first. -/
structure Held where
  seq : Byte
  change : Change
  roundTaken : Round
  ticket : Nat
deriving DecidableEq, Repr

/-! ## Metering and the journal (chapters 9 and 10) -/

/-- The meters of a slot whose meters are open (R147). A slot with closed meters is not listed. -/
structure Meters where
  openedCut : Round
  up : Quad Nat
  down : Quad Nat
  withheld : Quad Nat
  granted : Nat
  inService : Nat
  hushed : Nat
  fenced : Nat
  partialSpan : Bool
  saturated : Bool
  cappedDuring : Bool
deriving DecidableEq, Repr

/-- What a watch follows (R157). -/
inductive Direction where
  | up | down | both
deriving DecidableEq, Repr

/-- A watch that is not EMPTY (R157); no band is ALL. -/
structure Watch where
  tree : TreeId
  tag : Nat
  direction : Direction
  band : Option BandId
  threshold : Nat
  throttle : Bool
  fired : Bool
deriving DecidableEq, Repr

/-- A usage record (R162). The opened cut, the counts and the marks are those of `meters`. -/
structure Record where
  final : Bool
  tree : TreeId
  tag : Nat
  serial : Serial
  interval : Round
  closedCut : Round
  meters : Meters
  contract : Contract
deriving DecidableEq, Repr

/-- The usage journal (R161). The held count is the number of records. -/
structure Journal where
  records : List Record
  booked : Nat
  mark : Nat
  intervals : Quad Round
deriving DecidableEq, Repr

/-! ## Notices and answers (chapter 11) -/

/-- The notice kinds, in the order of the table of R177. -/
inductive NoticeKind where
  | homeHeard | homeActive | enrolFailed | stranger | serialClash | homeSilent | reachLimit | treeReady | treeFault
  | intervalClosed | journalHigh | watchFired | lightSeen | lightGone | rogueContained | rogueUnresolved | overrunFence
  | applied
deriving DecidableEq, Repr

/-- The severities, in rising order (R177). -/
inductive Severity where
  | info | warn | alarm
deriving DecidableEq, Repr

/-- Why an enrolment failed (R61). -/
inductive FailReason where
  | treeFull | outOfReach | noEcho | noGreeting
deriving DecidableEq, Repr

/-- The detail of a notice, by kind, as the owning chapter gives it. -/
inductive Detail where
  | homeHeard (tree : TreeId) (tag : Nat) (serial : Serial) (token : Token) (reEnrolling commitmentCut : Bool)
  | homeActive (tree : TreeId) (tag : Nat) (serial : Serial) (reEnrolled : Bool)
  | enrolFailed (tree : TreeId) (tag : Nat) (serial : Serial) (reason : FailReason) (token : Option Token)
      (roundTrip : Option Nat) (toSilent : Bool)
  | stranger (serial : Serial) (token : Token) (tree : TreeId)
  | serialClash (serial : Serial) (token : Token) (tree : TreeId) (holderTree : TreeId) (holderTag : Nat)
      (holderState : EntryState)
  | homeSilent (tree : TreeId) (tag : Nat) (serial : Serial)
  | reachLimit (tree : TreeId) (tag : Nat) (serial : Serial) (offset : Int) (before after : Nat)
  | treeReady (tree : TreeId) (baseline : Nat)
  | treeFault (tree : TreeId) (baseline : Nat)
  | intervalClosed (tree : TreeId) (interval : Round) (closedCut : Round) (written carried held booked : Nat)
  | journalHigh (held booked mark : Nat) (round : Round)
  | watchFired (watch : Nat) (tree : TreeId) (tag : Nat) (serial : Serial) (sum threshold : Nat) (throttle : Bool)
  | lightSeen (tree : TreeId) (round : Round) (level limit : Nat) (stray : Bool)
  | lightGone (tree : TreeId) (round : Round) (hits : Nat)
  | rogueContained (tree : TreeId) (tag : Nat) (serial : Serial) (steps : Nat) (started : Round)
  | rogueUnresolved (tree : TreeId) (reason : HuntReason) (steps : Nat) (started : Round) (candidate : Option Nat)
  | overrunFence (tree : TreeId) (tag : Nat) (serial : Serial) (overruns level : Nat) (round : Round)
  | applied (change : Change) (roundTaken : Round) (carriedOut : Bool) (voidCount : Nat)
deriving DecidableEq, Repr

/-- An entry of a notice queue (R179). -/
structure NoticeEntry where
  kind : NoticeKind
  tree : Option TreeId
  severity : Severity
  count : Nat
  firstSeen : Round
  detail : Detail
deriving DecidableEq, Repr

/-- The statuses of answers (R173). -/
inductive Status where
  | done | staged | portBusy | notPermitted | badArgument | wrongState | noSuchHome | overbook | listFull | journalShort
  | allocBusy | heldTooLong
deriving DecidableEq, Repr

/-- What READ TREE shows (R16). The counts are of the entries VACANT, HEARD, TIMED, ACTIVE, SILENT, FENCED, LEAVING. -/
structure TreeReading where
  round : Round
  phase : TreeState
  settlingCount : Nat
  settings : Settings
  limitValue : Nat
  limitScale : Nat
  m : Nat
  v : Nat
  mOver : Nat
  bookedCall : Nat
  bookedDark : Nat
  bookingSum : Nat
  calls : Bool
  collisions : Nat
  counts : List Nat
  lead : Nat
  fill : Nat
deriving DecidableEq, Repr

/-- What READ LIGHT shows (R146). -/
structure LightReading where
  baseline : Nat
  limitValue : Nat
  limitScale : Nat
  effectiveLimit : Nat
  m : Nat
  v : Nat
  mOver : Nat
  suspicion : Suspicion
  observations : List Bool
  cadence : Nat
  kDark : Nat
  strays : Nat
  lastDark : Option (Nat × Round)
  lastHunt : Option HuntResult
deriving DecidableEq, Repr

/-- What READ METERS shows (R156). Closed meters are shown as none and read as zeros. -/
structure MeterReading where
  round : Round
  band : BandId
  state : EntryState
  occupant : Option (Serial × Round)
  meters : Option Meters
  capped : Bool
  watches : Store Watch
deriving DecidableEq, Repr

/-- The results of an answer, in the order the request's rule names them. -/
inductive Results where
  | nothing
  | stopped (vacant silent fenced : Nat) (huntEnded : Bool) (packets : Nat)
  | admitted (held : Nat) (replaced : Bool)
  | struck (held : Nat)
  | allocations (aLine aAccounting aSupervisor : Nat)
  | routedBefore (port : Port)
  | treeReading (r : TreeReading)
  | records (taken : List Record) (held booked : Nat)
  | watchSet (sum : Nat) (fired : Bool)
  | meterReading (r : MeterReading)
  | heldCount (held : Nat)
  | effectiveLimit (limit : Nat)
  | huntStarted (suspects group : Nat)
  | huntForeign
  | suspicionBefore (name : SuspicionName)
  | lightReading (r : LightReading)
  | roster (slots : List (Nat × Option Entry))
  | notices (entries : List NoticeEntry) (left : Nat)
  | atThreshold (entries : Nat)
  | discarded (requests notices : Nat)
deriving DecidableEq, Repr

/-- An answer message (section 12.1): sequence byte, status, results. -/
structure Answer where
  seq : Byte
  status : Status
  results : Results
deriving DecidableEq, Repr

/-- An agent port (R171). No hold limit is OFF. `line` is the notice line; `sent` holds the answers sent, oldest first. -/
structure PortState where
  inProgress : Option Held
  waiting : Option Arrived
  stalled : Bool
  holdLimit : Option Nat
  allocation : Nat
  notices : List NoticeEntry
  threshold : Severity
  line : Bool
  sent : List Answer
deriving DecidableEq, Repr

/-! ## The part -/

/-- An upstream packet, labelled with its tree and tag (R80). -/
structure UpPacket where
  tree : TreeId
  tag : Nat
  payload : List Byte
deriving DecidableEq, Repr

/-- A downstream packet offered by the traffic interface (R71). -/
structure OfferedPacket where
  tree : TreeId
  packet : DownPacket
deriving DecidableEq, Repr

/-- The state of the part, and the queue of commands that wait. -/
structure State where
  round : Round
  cutTaken : Bool
  trees : Quad Tree
  roster : Store Entry
  admissions : Store Admission
  openMode : Bool
  ports : Trio PortState
  routes : List (NoticeKind × Port)
  queue : List ChangeEntry
  tickets : Nat
  band : BandId
  meters : Store Meters
  watches : Store Watch
  journal : Journal
  upBuffer : List UpPacket
  delivered : List UpPacket
  heldPacket : Option OfferedPacket
  pending : List Instr
deriving DecidableEq, Repr

/-- Why a step could stop with a fault: the manual names no condition that stops the part, so there is none. -/
inductive Fault where
deriving DecidableEq, Repr

/-- Why a command could have no meaning. -/
inductive Refusal where
  /-- Raised by `exec` for a row that has no meaning yet, and by nothing else. Safe: the model stops where the part goes on. -/
  | notModelled (mnemonic : String)
deriving DecidableEq, Repr

/-! ## Reset (R9, R17, R35, R38, R41, R70, R80, R91, R111, R118, R119, R120, R123, R147, R153, R157, R161, R171) -/

/-- The tree settings after power-on or the reset line (section 1.5). -/
def resetSettings : Settings :=
  { target := 80000, nearBound := 0, overhead := 2, minBurst := 4, wCall := 400, kCall := 50, wDark := 16, kDark := 32,
    poll := 8, silence := 4, defaultPeak := 500 }

/-- The enrolment engine after reset (R41). -/
def resetEngine : Engine :=
  { calls := false, count := 0, deferred := false, windows := [], collisions := 0, bookedProbe := none, chosen := none }

/-- The light supervisor after reset (R123). -/
def resetLight : Light :=
  { baseline := 0, limitValue := 32, limitScale := 4, m := 3, v := 2, mOver := 3, suspicion := .clear, observations := [],
    cadence := 0, darkAnswer := none, strays := 0, lastDark := none, lastHunt := none }

/-- The upstream checker after reset. -/
def resetChecker : Checker :=
  { muted := false, marks := [], carried := none, carriedIdle := none, darkTaken := false, idleTaken := false }

/-- A tree after reset: DOWN (section 1.1). -/
def resetTree : Tree :=
  { phase := .down, settings := resetSettings, settlingCount := 0, lead := 1, bookedCall := 400, bookedDark := 16,
    plans := [], engine := resetEngine, light := resetLight, framer := { buffer := [], frame := none },
    checker := resetChecker }

/-- A port after reset, with its allocation (R171). -/
def resetPort (allocation : Nat) : PortState :=
  { inProgress := none, waiting := none, stalled := false, holdLimit := some 500, allocation := allocation, notices := [],
    threshold := .info, line := false, sent := [] }

/-- The default ports of the routable kinds (R177). -/
def defaultRoutes : List (NoticeKind × Port) :=
  [(.homeHeard, .line), (.homeActive, .line), (.enrolFailed, .line), (.stranger, .line), (.serialClash, .line),
   (.homeSilent, .line), (.reachLimit, .line), (.treeReady, .line), (.treeFault, .line),
   (.intervalClosed, .accounting), (.journalHigh, .accounting), (.watchFired, .accounting),
   (.lightSeen, .supervisor), (.lightGone, .supervisor), (.rogueContained, .supervisor),
   (.rogueUnresolved, .supervisor), (.overrunFence, .supervisor)]

/-- The part right after power-on or the reset line. -/
def State.reset : State :=
  { round := 0, cutTaken := false, trees := Quad.all resetTree, roster := [], admissions := [], openMode := false,
    ports := { line := resetPort 16, accounting := resetPort 10, supervisor := resetPort 6 }, routes := defaultRoutes,
    queue := [], tickets := 0, band := 0, meters := [], watches := [],
    journal := { records := [], booked := 0, mark := 1536, intervals := Quad.all 0 },
    upBuffer := [], delivered := [], heldPacket := none, pending := [] }

end Sys2Proof.Machine
end

