-- ==== Sys2Proof/Machine/Flags.lean ====
section
/-! DEFINITION. Constants of the manual, and the conditions its rules test: which round is later, levels and limits,
saturation, severities, ranges. -/

namespace Sys2Proof.Machine

/-- Quanta in a round (section 1.4). -/
def roundQuanta : Nat := 1875
/-- Byte-times in a round (section 1.4). -/
def roundBytes : Nat := 60000
/-- Byte-times in a quantum (section 1.4). -/
def quantumBytes : Nat := 32
/-- Bytes of a downstream payload buffer (R70) and of the upstream delivery buffer (R80). -/
def bufferBytes : Nat := 262144
/-- Bytes of a frame (R63). -/
def frameBytes : Nat := 120000
/-- The longest packet (R70, R80). -/
def maxPacket : Nat := 2048
/-- Records the journal holds (R161). -/
def journalPlaces : Nat := 2048
/-- The ceiling of interval records (R161, R165). -/
def journalCeiling : Nat := 1984
/-- Records the admission list holds (R35). -/
def admissionPlaces : Nat := 256
/-- The largest value of a byte count (R147). -/
def maxBytes : Nat := 2 ^ 48 - 1
/-- The largest value of a round count, a quantum count, a stray count or a collision count (R147, R41, R123). -/
def maxCount : Nat := 4294967295
/-- The largest count of a notice entry and the largest void count (R179, R116). -/
def maxNoticeCount : Nat := 65535

/-- The distance forward from one round number to another, through the wrap (00_scope.md, Time). -/
def roundsForward (a b : Round) : Nat := (b - a).toNat

/-- Whether `a` is later than `b`: the later of two rounds is the one reached from the other by the smaller forward
distance (R9). At equal distances the rule names neither, and the answer is a free value (log entry 6). -/
def laterThan (a b : Round) : Bool :=
  let d := roundsForward b a
  if d = 0 then false
  else if d < 2147483648 then true
  else if d = 2147483648 then Config.laterAtHalfTurn a b
  else false

/-- The effective limit of a tree: the smaller of 4,095 and the baseline plus the light limit (R86, R124). -/
def Light.effectiveLimit (l : Light) : Nat := min 4095 (l.baseline + l.limitValue * l.limitScale)

/-- The level over the byte-times from `lo` to just before `hi`: the highest reading of the input, 0 where no reading is
left (R4, R86, R87). -/
def levelOver (lo hi : Int) (samples : List Sample) : Nat :=
  samples.foldl (fun acc x => if lo ≤ x.time ∧ x.time < hi then max acc x.reading.toNat else acc) 0

/-- A sum that stays at its largest value, and whether it would have passed it (R149). -/
def satAdd (limit n k : Nat) : Nat × Bool :=
  if limit < n + k then (limit, true) else (n + k, false)

/-- A number rounded up to quanta (R79). -/
def quantaUp (bytes : Nat) : Nat := (bytes + 31) / 32

/-- The rank of a severity: INFO below WARN below ALARM (R177). -/
def Severity.rank : Severity → Nat
  | .info => 0
  | .warn => 1
  | .alarm => 2

/-- The severity of a notice kind (R177). -/
def NoticeKind.severity : NoticeKind → Severity
  | .homeHeard => .info
  | .homeActive => .info
  | .enrolFailed => .warn
  | .stranger => .info
  | .serialClash => .warn
  | .homeSilent => .warn
  | .reachLimit => .warn
  | .treeReady => .info
  | .treeFault => .alarm
  | .intervalClosed => .info
  | .journalHigh => .warn
  | .watchFired => .info
  | .lightSeen => .warn
  | .lightGone => .info
  | .rogueContained => .alarm
  | .rogueUnresolved => .alarm
  | .overrunFence => .alarm
  | .applied => .info

/-- The condition of a notice line: an entry at or above the threshold is queued (R180). -/
def lineCondition (threshold : Severity) (notices : List NoticeEntry) : Bool :=
  notices.any fun e => threshold.rank ≤ e.severity.rank

/-- A tree argument as a tree (R183). -/
def treeOf (n : Nat) : Option TreeId := if h : n < 4 then some ⟨n, h⟩ else none

/-- A tag argument in range (R17). -/
def tagOk (tag : Nat) : Bool := 1 ≤ tag && tag ≤ 128

/-- A contract in range: c at most 1,875, p from c (and at least 1) to 1,875, w 1–255 (R36, R108). -/
def contractOk (c p w : Nat) : Bool :=
  c ≤ 1875 && c ≤ p && 1 ≤ p && p ≤ 1875 && 1 ≤ w && w ≤ 255

/-- A port argument (R183): Line 1, Accounting 2, Supervisor 3. -/
def portOf : Nat → Option Port
  | 1 => some .line
  | 2 => some .accounting
  | 3 => some .supervisor
  | _ => none

end Sys2Proof.Machine
end

