-- ==== Sys2Proof/Machine/Ops.lean ====
section
/-! DEFINITION. Shared operations: trees, ports and slots, entries and owed orders, notices, answers, the booking. -/

namespace Sys2Proof.Machine

/-! ## Trees, ports, slots -/

/-- The slot of (tree, tag): tree × 128 + (tag − 1) (R17). -/
def slotOf (t : TreeId) (tag : Nat) : Nat := t.val * 128 + (tag - 1)

/-- The tree of a slot, as a number (R17). -/
def slotTree (k : Nat) : Nat := k / 128

/-- The tag of a slot (R17). -/
def slotTag (k : Nat) : Nat := k % 128 + 1

/-- A tree of the part. -/
def State.tree (s : State) (t : TreeId) : Tree := s.trees.get t

/-- Replaces a tree. -/
def State.setTree (s : State) (t : TreeId) (x : Tree) : State := { s with trees := s.trees.set t x }

/-- Changes a tree. -/
def State.modTree (s : State) (t : TreeId) (f : Tree → Tree) : State := s.setTree t (f (s.tree t))

/-- Changes the enrolment engine of a tree. -/
def State.modEngine (s : State) (t : TreeId) (f : Engine → Engine) : State :=
  s.modTree t fun x => { x with engine := f x.engine }

/-- Changes the light supervisor of a tree. -/
def State.modLight (s : State) (t : TreeId) (f : Light → Light) : State :=
  s.modTree t fun x => { x with light := f x.light }

/-- Changes the upstream checker of a tree. -/
def State.modChecker (s : State) (t : TreeId) (f : Checker → Checker) : State :=
  s.modTree t fun x => { x with checker := f x.checker }

/-- Changes the framer of a tree. -/
def State.modFramer (s : State) (t : TreeId) (f : Framer → Framer) : State :=
  s.modTree t fun x => { x with framer := f x.framer }

/-- A port of the part. -/
def State.port (s : State) (p : Port) : PortState := s.ports.get p

/-- Replaces a port. -/
def State.setPort (s : State) (p : Port) (x : PortState) : State := { s with ports := s.ports.set p x }

/-- Changes a port. -/
def State.modPort (s : State) (p : Port) (f : PortState → PortState) : State := s.setPort p (f (s.port p))

/-- The entry of a slot; none where the slot is VACANT (R17). -/
def State.entry (s : State) (t : TreeId) (tag : Nat) : Option Entry := Store.read (slotOf t tag) s.roster

/-- Gives a slot an entry. -/
def State.setEntry (s : State) (t : TreeId) (tag : Nat) (e : Entry) : State :=
  { s with roster := Store.write (slotOf t tag) e s.roster }

/-- Changes the entry of a slot; a VACANT slot stays so. -/
def State.modEntry (s : State) (t : TreeId) (tag : Nat) (f : Entry → Entry) : State :=
  { s with roster := Store.modify (slotOf t tag) f s.roster }

/-- The entries of a tree that are not VACANT, with their tags, in ascending tag. -/
def State.treeEntries (s : State) (t : TreeId) : List (Nat × Entry) :=
  s.roster.filterMap fun x => if slotTree x.1 = t.val then some (slotTag x.1, x.2) else none

/-- Changes every entry of a tree. -/
def State.modTreeEntries (s : State) (t : TreeId) (f : Nat → Entry → Entry) : State :=
  { s with roster := s.roster.map fun x => if slotTree x.1 = t.val then (x.1, f (slotTag x.1) x.2) else x }

/-- Makes a slot VACANT: its fields go, and any watch on it becomes EMPTY (R32, R159). -/
def State.vacate (s : State) (t : TreeId) (tag : Nat) : State :=
  { s with
    roster := Store.erase (slotOf t tag) s.roster
    watches := s.watches.filter fun x => !(x.2.tree = t && x.2.tag = tag) }

/-! ## Entries -/

/-- The state of an entry by name. -/
def Entry.state (e : Entry) : EntryState :=
  match e.body with
  | .heard _ => .heard
  | .timed _ => .timed
  | .active _ => .active
  | .silent _ => .silent
  | .fenced _ => .fenced
  | .leaving _ => .leaving

/-- The state of a slot by name. -/
def State.slotState (s : State) (t : TreeId) (tag : Nat) : EntryState :=
  match s.entry t tag with
  | none => .vacant
  | some e => e.state

/-- The hushed mark; a state without the field reads "no" (section 2.2). -/
def Entry.hushed (e : Entry) : Bool :=
  match e.body with
  | .timed f => f.hushed
  | .active f => f.hushed
  | .silent f => f.hushed
  | .fenced f => f.hushed
  | .heard _ => false
  | .leaving _ => false

/-- Sets or clears the hushed mark in the states that have it. -/
def Entry.setHushed (e : Entry) (b : Bool) : Entry :=
  match e.body with
  | .timed f => { e with body := .timed { f with hushed := b } }
  | .active f => { e with body := .active { f with hushed := b } }
  | .silent f => { e with body := .silent { f with hushed := b } }
  | .fenced f => { e with body := .fenced { f with hushed := b } }
  | .heard _ => e
  | .leaving _ => e

/-- The trial mark. -/
def Entry.trial (e : Entry) : Bool :=
  match e.body with
  | .fenced f => f.trial
  | _ => false

/-- The equalization delay, in the states that hold it (section 2.2). -/
def Entry.delay (e : Entry) : Option Nat :=
  match e.body with
  | .heard f => f.keptDelay
  | .timed f => some f.e
  | .active f => some f.e
  | .silent f => some f.e
  | .fenced f => some f.e
  | .leaving d => d

/-! ## Owed orders (R65) -/

/-- No order owed. -/
def Owed.none : Owed :=
  { fence := false, release := false, drop := false, hush := false, wake := false, assign := false, probe := false,
    adjust := false }

/-- Makes an order owed, with the removals of R65: HUSH and WAKE remove each other, FENCE and RELEASE each other, DROP
every other order; while DROP is owed nothing is added. -/
def Owed.add (o : Owed) (k : OrderKind) : Owed :=
  if o.drop then o
  else
    match k with
    | .hush => { o with hush := true, wake := false }
    | .wake => { o with wake := true, hush := false }
    | .fence => { o with fence := true, release := false }
    | .release => { o with release := true, fence := false }
    | .drop => { Owed.none with drop := true }
    | .assign => { o with assign := true }
    | .probe => { o with probe := true }
    | .adjust => { o with adjust := true }

/-- Takes an order out of the set, when it is sent (R68). -/
def Owed.remove (o : Owed) (k : OrderKind) : Owed :=
  match k with
  | .hush => { o with hush := false }
  | .wake => { o with wake := false }
  | .fence => { o with fence := false }
  | .release => { o with release := false }
  | .drop => { o with drop := false }
  | .assign => { o with assign := false }
  | .probe => { o with probe := false }
  | .adjust => { o with adjust := false }

/-- Whether an order is owed. -/
def Owed.has (o : Owed) (k : OrderKind) : Bool :=
  match k with
  | .hush => o.hush
  | .wake => o.wake
  | .fence => o.fence
  | .release => o.release
  | .drop => o.drop
  | .assign => o.assign
  | .probe => o.probe
  | .adjust => o.adjust

/-- Makes an order owed on an entry. -/
def Entry.owe (e : Entry) (k : OrderKind) : Entry := { e with owed := e.owed.add k }

/-- Wakes an entry that holds the hushed mark: WAKE becomes owed, and the mark stays until the WAKE is sent (R65, R68). -/
def Entry.wake (e : Entry) : Entry := if e.hushed then e.owe .wake else e

/-- Hushes an entry (R132): an entry not hushed takes the mark and owes HUSH; one hushed that owes WAKE owes HUSH instead;
one hushed that owes no WAKE needs no order. -/
def Entry.hush (e : Entry) : Entry :=
  if e.hushed then (if e.owed.wake then e.owe .hush else e)
  else (e.setHushed true).owe .hush

/-! ## Notices (R177 to R180) -/

/-- The kind of a detail. -/
def Detail.kind : Detail → NoticeKind
  | .homeHeard .. => .homeHeard
  | .homeActive .. => .homeActive
  | .enrolFailed .. => .enrolFailed
  | .stranger .. => .stranger
  | .serialClash .. => .serialClash
  | .homeSilent .. => .homeSilent
  | .reachLimit .. => .reachLimit
  | .treeReady .. => .treeReady
  | .treeFault .. => .treeFault
  | .intervalClosed .. => .intervalClosed
  | .journalHigh .. => .journalHigh
  | .watchFired .. => .watchFired
  | .lightSeen .. => .lightSeen
  | .lightGone .. => .lightGone
  | .rogueContained .. => .rogueContained
  | .rogueUnresolved .. => .rogueUnresolved
  | .overrunFence .. => .overrunFence
  | .applied .. => .applied

/-- The void count an APPLIED detail carries; 0 for every other kind. -/
def Detail.voidCount : Detail → Nat
  | .applied _ _ _ n => n
  | _ => 0

/-- The detail that replaces an older one: an APPLIED detail's void count is the older one's plus its own (R116). -/
def Detail.over (new old : Detail) : Detail :=
  match new with
  | .applied change taken ok n => .applied change taken ok (min maxNoticeCount (old.voidCount + n))
  | d => d

/-- A notice queue after an occurrence (R179): it coalesces with the entry of its key, or makes a new entry at the back. -/
def noticesAfter (round : Round) (tree : Option TreeId) (d : Detail) : List NoticeEntry → List NoticeEntry
  | [] =>
    [{ kind := d.kind, tree := tree, severity := d.kind.severity, count := 1, firstSeen := round, detail := d }]
  | e :: rest =>
    if e.kind = d.kind ∧ e.tree = tree then
      { e with count := min maxNoticeCount (e.count + 1), detail := d.over e.detail } :: rest
    else e :: noticesAfter round tree d rest

/-- Judges the notice line afresh (R180). -/
def PortState.judgeLine (p : PortState) : PortState := { p with line := lineCondition p.threshold p.notices }

/-- Delivers an occurrence to a port (R179, R180). -/
def State.raiseAt (s : State) (p : Port) (tree : Option TreeId) (d : Detail) : State :=
  s.modPort p fun x => { x with notices := noticesAfter s.round tree d x.notices }.judgeLine

/-- The port the route table names for a kind (R177, R178). -/
def routeOf (routes : List (NoticeKind × Port)) (k : NoticeKind) : Port :=
  match routes with
  | [] => .line
  | (k', p) :: rest => if k = k' then p else routeOf rest k

/-- Raises a notice with a key tree: it goes to the port the route table names for its kind (R177). -/
def State.raise (s : State) (t : TreeId) (d : Detail) : State := s.raiseAt (routeOf s.routes d.kind) (some t) d

/-- Raises a notice whose key has no tree (R177). -/
def State.raiseKeyless (s : State) (d : Detail) : State := s.raiseAt (routeOf s.routes d.kind) none d

/-! ## Answers (R172, R173) -/

/-- Sends an answer at a port. -/
def State.reply (s : State) (p : Port) (seq : Byte) (status : Status) (results : Results) : State :=
  s.modPort p fun x => { x with sent := x.sent ++ [{ seq := seq, status := status, results := results }] }

/-- Answers a request that a check refuses: it changes nothing (R173). -/
def State.refuse (s : State) (p : Port) (seq : Byte) (status : Status) : State := s.reply p seq status .nothing

/-! ## The booking (R20, R107) -/

/-- What an entry with a booked commitment adds to the booking sum (R20). -/
def bookingTerm (booked overhead : Nat) : Nat := if 0 < booked then booked + overhead else 0

/-- The booking sum of a tree, counted with an overhead H (R107). -/
def State.bookingWith (s : State) (t : TreeId) (overhead : Nat) : Nat :=
  ((s.treeEntries t).map fun x => bookingTerm x.2.booked overhead).sum

/-- The booking sum B_t (R107). -/
def State.bookingSum (s : State) (t : TreeId) : Nat := s.bookingWith t (s.tree t).settings.overhead

/-- The committed rates of the CONTRACT changes in the queue for the occupant of a slot: those that are not void for it
(R20, R22, R115). -/
def queuedRates (queue : List ChangeEntry) (t : TreeId) (tag : Nat) (occupied : Round) : List Nat :=
  queue.filterMap fun q =>
    match q.change with
    | .contract t' tag' v =>
      if t' = t ∧ tag' = tag ∧ q.voided = false ∧ laterThan occupied q.roundTaken = false then some v.c else none
    | _ => none

/-- The booked commitment an entry takes: the greatest of its c and the queued rates (R20). -/
def bookedFor (c : Nat) (rates : List Nat) : Nat := rates.foldl max c

/-- Gives the entry of a slot its booked commitment afresh (R20). -/
def State.rebook (s : State) (t : TreeId) (tag : Nat) : State :=
  s.modEntry t tag fun e => { e with booked := bookedFor e.contract.c (queuedRates s.queue t tag e.occupied) }

end Sys2Proof.Machine
end

