-- ==== Sys2Proof/Machine/Roster.lean ====
section
/-! DEFINITION. The roster controller (chapter 2): the transitions of an entry, each judged against the entry as it
stands (R21), the search for a serial, and the admission test. A declined transition answers none. -/

namespace Sys2Proof.Machine

/-- A new HEARD entry (R23). -/
def newHeard (serial : Serial) (round : Round) (contract : Contract) : Entry :=
  { serial := serial, occupied := round, contract := contract, booked := contract.c, capped := false, owed := Owed.none,
    body := .heard { heardRound := round, tries := 0, keptDelay := none } }

/-- SILENT to HEARD with the re-enrolling mark (R24). -/
def Entry.reEnrol (e : Entry) (round : Round) : Option Entry :=
  match e.body with
  | .silent f =>
    some { e with owed := Owed.none, body := .heard { heardRound := round, tries := 0, keptDelay := some f.e } }
  | _ => none

/-- HEARD to TIMED with a measured delay; ASSIGN becomes owed (R25). -/
def Entry.toTimed (e : Entry) (delay : Nat) : Option Entry :=
  match e.body with
  | .heard f =>
    some ({ e with body := .timed { e := delay, former := f.keptDelay, misses := 0, hushed := false } }.owe .assign)
  | _ => none

/-- What a failed enrolment leaves of an entry (R26). -/
inductive Failure where
  | toVacant
  | toSilent (e : Entry)
  | declined
deriving DecidableEq, Repr

/-- A failed enrolment: an entry without the re-enrolling mark becomes VACANT, one with it returns to SILENT (R26). -/
def Entry.failEnrolment (e : Entry) : Failure :=
  match e.body with
  | .heard f =>
    match f.keptDelay with
    | none => .toVacant
    | some d => .toSilent { e with owed := Owed.none, body := .silent { e := d, hushed := false } }
  | .timed f =>
    match f.former with
    | none => .toVacant
    | some d => .toSilent { e with owed := Owed.none, body := .silent { e := d, hushed := f.hushed } }
  | _ => .declined

/-- TIMED to ACTIVE at a received greeting of a round, with the need its backlog report gives (R27). -/
def Entry.toActive (e : Entry) (need : Nat) (round : Round) : Option Entry :=
  match e.body with
  | .timed f =>
    some { e with
      body := .active { e := f.e, missCount := 0, need := need, credit := 0, lastGranted := some round, history := [],
                        hushed := f.hushed } }
  | _ => none

/-- ACTIVE to SILENT (R28). -/
def Entry.toSilent (e : Entry) : Option Entry :=
  match e.body with
  | .active f => some { e with body := .silent { e := f.e, hushed := f.hushed } }
  | _ => none

/-- An ACTIVE entry fenced: need, credit, last granted round and history are kept, the miss count goes (R29). -/
def Active.fenced (f : Active) (trial : Bool) : Fenced :=
  { e := f.e, need := f.need, credit := f.credit, lastGranted := f.lastGranted, history := f.history, hushed := f.hushed,
    trial := trial }

/-- An applied FENCE: from TIMED, ACTIVE, SILENT, or FENCED without the trial mark; FENCE becomes owed (R29). -/
def Entry.applyFence (e : Entry) : Option Entry :=
  match e.body with
  | .timed f =>
    some ({ e with body := .fenced { e := f.e, need := 0, credit := 0, lastGranted := none, history := [],
                                     hushed := f.hushed, trial := false } }.owe .fence)
  | .active f => some ({ e with body := .fenced (f.fenced false) }.owe .fence)
  | .silent f =>
    some ({ e with body := .fenced { e := f.e, need := 0, credit := 0, lastGranted := none, history := [],
                                     hushed := f.hushed, trial := false } }.owe .fence)
  | .fenced f => if f.trial then none else some (e.owe .fence)
  | .heard _ => none
  | .leaving _ => none

/-- A fence by the light supervisor, overrun or trial: from ACTIVE alone (R29). -/
def Entry.superviseFence (e : Entry) (trial : Bool) : Option Entry :=
  match e.body with
  | .active f => some ({ e with body := .fenced (f.fenced trial) }.owe .fence)
  | _ => none

/-- FENCED to ACTIVE: an applied RELEASE of an entry without the trial mark, or the supervisor's release of one with it;
RELEASE becomes owed (R30). -/
def Entry.releaseFence (e : Entry) (trial : Bool) : Option Entry :=
  match e.body with
  | .fenced f =>
    if f.trial = trial then
      some ({ e with
        body := .active { e := f.e, missCount := 0, need := f.need, credit := f.credit, lastGranted := f.lastGranted,
                          history := [], hushed := f.hushed } }.owe .release)
    else none
  | _ => none

/-- Clears the trial mark of a contained candidate, which stays FENCED (R30, R137). -/
def Entry.confirmFence (e : Entry) : Entry :=
  match e.body with
  | .fenced f => { e with body := .fenced { f with trial := false } }
  | _ => e

/-- An applied WITHDRAW makes any entry but a LEAVING one LEAVING; DROP becomes owed, which removes every other order (R31). -/
def Entry.toLeaving (e : Entry) : Option Entry :=
  match e.body with
  | .leaving _ => none
  | _ => some ({ e with body := .leaving e.delay }.owe .drop)

/-- What a tree stop makes of an entry: none where it becomes VACANT (R7). Every entry that stays loses its owed orders,
its hushed mark, its need, credit, miss count and overrun history. -/
def Entry.stopped (e : Entry) : Option Entry :=
  match e.body with
  | .heard f =>
    match f.keptDelay with
    | none => none
    | some d => some { e with owed := Owed.none, body := .silent { e := d, hushed := false } }
  | .timed f =>
    match f.former with
    | none => none
    | some d => some { e with owed := Owed.none, body := .silent { e := d, hushed := false } }
  | .active f => some { e with owed := Owed.none, body := .silent { e := f.e, hushed := false } }
  | .silent f => some { e with owed := Owed.none, body := .silent { e := f.e, hushed := false } }
  | .fenced f =>
    if f.trial then some { e with owed := Owed.none, body := .silent { e := f.e, hushed := false } }
    else
      some { e with
        owed := Owed.none
        body := .fenced { f with need := 0, credit := 0, history := [], hushed := false } }
  | .leaving _ => none

/-- Clamps the delay an entry holds, and a former delay, to a new T (R14, R19). -/
def Entry.clampDelay (target : Nat) (e : Entry) : Entry :=
  match e.body with
  | .heard f => { e with body := .heard { f with keptDelay := f.keptDelay.map (min target) } }
  | .timed f => { e with body := .timed { f with e := min target f.e, former := f.former.map (min target) } }
  | .active f => { e with body := .active { f with e := min target f.e } }
  | .silent f => { e with body := .silent { f with e := min target f.e } }
  | .fenced f => { e with body := .fenced { f with e := min target f.e } }
  | .leaving d => { e with body := .leaving (d.map (min target)) }

/-- Gives an entry a corrected delay, in the states whose accepted bursts correct it (R77, R78). -/
def Entry.setDelay (e : Entry) (d : Nat) : Entry :=
  match e.body with
  | .timed f => { e with body := .timed { f with e := d } }
  | .active f => { e with body := .active { f with e := d } }
  | .silent f => { e with body := .silent { f with e := d } }
  | .fenced f => { e with body := .fenced { f with e := d } }
  | .heard _ => e
  | .leaving _ => e

/-! ## Tags, serials, admission -/

/-- The holder of a serial among all 512 slots (R34): its tree, tag and entry. -/
def State.holderOf (s : State) (serial : Serial) : Option (TreeId × Nat × Entry) :=
  match s.roster.find? (fun x => x.2.serial = serial) with
  | none => none
  | some (k, e) =>
    match treeOf (slotTree k) with
    | none => none
    | some t => some (t, slotTag k, e)

/-- The tags 1–128 in ascending order. -/
def allTags : List Nat := List.range' 1 128

/-- The lowest VACANT tag of a tree (R33). -/
def State.lowestVacant (s : State) (t : TreeId) : Option Nat :=
  allTags.find? fun tag => (s.entry t tag).isNone

/-- The admission test of a serial the roster does not hold: its contract, or none where it is refused (R39). -/
def State.admissionTest (s : State) (serial : Serial) (t : TreeId) : Option Contract :=
  match Store.read serial.toNat s.admissions with
  | some r =>
    match r.tree with
    | none => some r.contract
    | some t' => if t' = t then some r.contract else none
  | none => if s.openMode then some { c := 0, p := (s.tree t).settings.defaultPeak, w := 1 } else none

end Sys2Proof.Machine
end

