-- ==== Sys2Proof/Machine/Light.lean ====
section
/-! DEFINITION. The light supervisor (chapter 8): suspicion, the hunt and its steps, verification, overrun fencing, and
the cadence of dark windows. -/

namespace Sys2Proof.Machine

/-- The hunt in progress on a tree. -/
def State.huntOf (s : State) (t : TreeId) : Option Hunt :=
  match (s.tree t).light.suspicion with
  | .hunt h => some h
  | _ => none

/-- Whether a tree's supervisor is in HUNT. -/
def State.hunting (s : State) (t : TreeId) : Bool := (s.huntOf t).isSome

/-- Stores the hunt record. -/
def State.setHunt (s : State) (t : TreeId) (h : Hunt) : State :=
  s.modLight t fun l => { l with suspicion := .hunt h }

/-- The name of a suspicion state. -/
def Suspicion.name : Suspicion → SuspicionName
  | .clear => .clear
  | .watch => .watch
  | .hunt _ => .hunt
  | .unresolved => .unresolved

/-- The state a hunt leaves behind: CLEAR after CONTAINED or ABANDON, UNRESOLVED otherwise (R140). -/
def HuntReason.after : HuntReason → Suspicion
  | .contained => .clear
  | .abandoned => .clear
  | .foreign => .unresolved
  | .elusive => .unresolved
  | .empty => .unresolved

/-- A hunt ends (R140): every hushed entry of the tree is woken, the record goes, the result is kept, the observation list
is emptied, and the state becomes CLEAR or UNRESOLVED. -/
def State.endHunt (s : State) (t : TreeId) (reason : HuntReason) (candidate : Option Nat) : State :=
  (s.modTreeEntries t fun _ e => e.wake).modLight t fun l =>
    { l with
      suspicion := reason.after
      observations := []
      lastHunt := some { reason := reason, round := s.round, tag := candidate } }

/-- A hunt ends UNRESOLVED: ROGUE_UNRESOLVED is raised (R140). -/
def State.unresolved (s : State) (t : TreeId) (h : Hunt) (reason : HuntReason) (candidate : Option Nat) : State :=
  (s.raise t (.rogueUnresolved t reason h.steps h.started candidate)).endHunt t reason candidate

/-- Verification (R136): every hushed entry is woken, the candidate is trial-fenced, and a new step begins in TRIAL. -/
def State.beginTrial (s : State) (t : TreeId) (h : Hunt) (candidate : Nat) : State :=
  let s1 := s.modTreeEntries t fun _ e => e.wake
  let s2 := s1.modEntry t candidate fun e => (e.superviseFence true).getD e
  s2.setHunt t { h with phase := .trial candidate, suspects := [candidate], effective := none, darkRun := 0 }

/-- The group a SEARCH step tests: the first ⌈len / 2⌉ tags of the list (R132). -/
def firstHalf (list : List Nat) : List Nat := list.take ((list.length + 1) / 2)

/-- A SEARCH step (R132, R134): its group is hushed, and the rest of the list is woken where it holds the hushed mark. -/
def State.searchStep (s : State) (t : TreeId) (h : Hunt) (list : List Nat) : State :=
  let group := firstHalf list
  (s.modTreeEntries t fun tag e => if tag ∈ group then e.hush else if tag ∈ list then e.wake else e).setHunt t
    { h with phase := .search group, suspects := list, effective := none, darkRun := 0 }

/-- A new step from a suspect list that is not empty: verification of one suspect, a SEARCH step of more (R131 to R136);
an empty list ends the hunt EMPTY (R139). -/
def State.formStep (s : State) (t : TreeId) (h : Hunt) (list : List Nat) : State :=
  match list with
  | [] => s.unresolved t h .empty none
  | [c] => s.beginTrial t h c
  | _ => s.searchStep t h list

/-- The tags of the tree's ACTIVE entries, ascending (R131). -/
def State.activeTags (s : State) (t : TreeId) : List Nat :=
  (s.treeEntries t).filterMap fun x => if x.2.state = .active then some x.1 else none

/-- A hunt begins (R131). -/
def State.beginHunt (s : State) (t : TreeId) : State :=
  let suspects := s.activeTags t
  let h : Hunt :=
    { phase := .search [], suspects := suspects, effective := none, darkRun := 0, steps := 0, started := s.round }
  let s1 := s.modLight t fun l => { l with suspicion := .hunt h, observations := [] }
  match suspects with
  | [] => s1.unresolved t h .foreign none
  | _ => s1.formStep t h suspects

/-- The light supervisor releases a trial-fenced candidate (R30, R138, R142). -/
def State.releaseCandidate (s : State) (t : TreeId) (candidate : Nat) : State :=
  s.modEntry t candidate fun e => (e.releaseFence true).getD e

/-- The serial of a slot's entry, for the detail of a notice. -/
def State.serialAt (s : State) (t : TreeId) (tag : Nat) : Serial :=
  match s.entry t tag with
  | some e => e.serial
  | none => 0

/-- The step of a hunt reaches an outcome, lit or dark (R133 to R138). -/
def State.huntOutcome (s : State) (t : TreeId) (h0 : Hunt) (lit : Bool) : State :=
  let h := { h0 with steps := min 255 (h0.steps + 1), darkRun := 0 }
  match h.phase with
  | .search group =>
    if lit then
      (s.modTreeEntries t fun tag e => if tag ∈ group then e.wake else e).formStep t h
        (h.suspects.filter fun x => x ∉ group)
    else s.formStep t h group
  | .trial c =>
    if lit then
      let quiet := (s.treeEntries t).filterMap fun x =>
        if x.2.state = .active ∨ x.2.state = .timed then some x.1 else none
      (s.modTreeEntries t fun tag e => if tag ∈ quiet then e.hush else e).setHunt t
        { h with phase := .allQuiet c quiet, effective := none }
    else
      ((s.modEntry t c Entry.confirmFence).raise t
        (.rogueContained t c (s.serialAt t c) h.steps h.started)).endHunt t .contained (some c)
  | .allQuiet c _ =>
    (s.releaseCandidate t c).unresolved t h (if lit then .foreign else .elusive) (some c)

/-- A dark-window level in HUNT (R133): ignored before the effective round; a hit is a lit outcome; V low levels in a row
are a dark outcome. -/
def State.observeHunt (s : State) (t : TreeId) (h : Hunt) (hit : Bool) : State :=
  match h.effective with
  | none => s
  | some k =>
    if laterThan k s.round then s
    else if hit then s.huntOutcome t h true
    else if (s.tree t).light.v ≤ h.darkRun + 1 then s.huntOutcome t h false
    else s.setHunt t { h with darkRun := h.darkRun + 1 }

/-- The quiet condition of the hunt's phase (R132). -/
def quietHolds (entries : List (Nat × Entry)) (phase : HuntPhase) : Bool :=
  match phase with
  | .search group =>
    (group.all fun g => entries.any fun x => x.1 = g) &&
    entries.all fun x => if x.1 ∈ group then x.2.hushed && !x.2.owed.hush else !x.2.hushed
  | .trial c => entries.all fun x => !x.2.hushed && (x.1 ≠ c || !x.2.owed.fence)
  | .allQuiet c quiet =>
    (quiet.all fun g => entries.any fun x => x.1 = g) &&
    entries.all fun x =>
      (if x.1 ∈ quiet then x.2.hushed && !x.2.owed.hush else !x.2.hushed) && (x.1 ≠ c || !x.2.owed.fence)

/-- The test of the quiet condition at the beginning of frame k, after its orders count as sent (R132): the first time it
holds, the effective round becomes k + 1. -/
def State.quietTest (s : State) (t : TreeId) : State :=
  match s.huntOf t with
  | none => s
  | some h =>
    match h.effective with
    | some _ => s
    | none =>
      if quietHolds (s.treeEntries t) h.phase then s.setHunt t { h with effective := some (s.round + 1) } else s

/-- A suspect leaves the hunt at its move to SILENT, FENCED or LEAVING (R139). -/
def State.leaveHunt (s : State) (t : TreeId) (tag : Nat) : State :=
  match s.huntOf t with
  | none => s
  | some h =>
    match h.phase with
    | .search group =>
      if tag ∈ h.suspects then
        let s1 := s.modEntry t tag Entry.wake
        let list := h.suspects.filter fun x => x ≠ tag
        let group' := group.filter fun x => x ≠ tag
        if list = [] then s1.unresolved t h .empty none
        else if group' = [] ∨ list.all (fun x => x ∈ group') then s1.formStep t h list
        else s1.setHunt t { h with suspects := list, phase := .search group' }
      else s
    | .trial c => if tag = c then s.unresolved t h .empty (some c) else s
    | .allQuiet c quiet =>
      if tag = c then s.unresolved t h .empty (some c)
      else if tag ∈ quiet then
        (s.modEntry t tag Entry.wake).setHunt t { h with phase := .allQuiet c (quiet.filter fun x => x ≠ tag) }
      else s

/-- The HITs of an observation list. -/
def hitsOf (list : List Bool) : Nat := list.count true

/-- The test of the observation list in WATCH (R129). -/
def State.testWatchList (s : State) (t : TreeId) : State :=
  let l := (s.tree t).light
  if l.m ≤ hitsOf l.observations then s.beginHunt t
  else if 8 ≤ l.observations.length then
    (s.modLight t fun l => { l with suspicion := .clear, observations := [] }).raise t
      (.lightGone t s.round (hitsOf l.observations))
  else s

/-- A hit in CLEAR, observed in a round: WATCH with one HIT, LIGHT_SEEN, and the list is tested at once (R127, R128). -/
def State.enterWatch (s : State) (t : TreeId) (round : Round) (level : Nat) (stray : Bool) : State :=
  ((s.modLight t fun l => { l with suspicion := .watch, observations := [true] }).raise t
    (.lightSeen t round level (s.tree t).light.effectiveLimit stray)).testWatchList t

/-- A dark-window level of a RUNNING tree (R127, R130). -/
def State.judgeDark (s : State) (t : TreeId) (level : Nat) : State :=
  let hit : Bool := (s.tree t).light.effectiveLimit < level
  let s1 := s.modLight t fun l => { l with lastDark := some (level, s.round) }
  match (s.tree t).light.suspicion with
  | .clear => if hit then s1.enterWatch t s.round level false else s1
  | .watch => (s1.modLight t fun l => { l with observations := l.observations ++ [hit] }).testWatchList t
  | .hunt h => s1.observeHunt t h hit
  | .unresolved =>
    s1.modLight t fun l =>
      { l with observations := (l.observations ++ [hit]).drop (l.observations.length + 1 - 8) }

/-- A stray observation of a round (R128). -/
def State.judgeStray (s : State) (t : TreeId) (round : Round) (level : Nat) : State :=
  let s1 := s.modLight t fun l => { l with strays := min maxCount (l.strays + 1) }
  match (s.tree t).light.suspicion with
  | .clear => s1.enterWatch t round level true
  | _ => s1

/-- The overruns of a history (R143). -/
def overrunsOf (history : List Bool) : Nat := history.count true

/-- An overrun observation of a round (R143): an ACTIVE entry with at least M_over overruns in its history is fenced, OVERRUN_FENCE is
raised, and after it the entry leaves a hunt (R139), which may raise ROGUE_UNRESOLVED (DESIGN CHOICE, log entry 37). -/
def State.judgeOverrun (s : State) (t : TreeId) (tag : Nat) (round : Round) (level : Nat) : State :=
  match s.entry t tag with
  | none => s
  | some e =>
    match e.body with
    | .active f =>
      if (s.tree t).light.mOver ≤ overrunsOf f.history then
        ((s.modEntry t tag fun e => (e.superviseFence false).getD e).raise t
          (.overrunFence t tag e.serial (overrunsOf f.history) level round)).leaveHunt t tag
      else s
    | _ => s

/-- A dark window is due in the plan of a cut of a RUNNING tree (R126). -/
def Light.darkDue (l : Light) (kDark : Nat) : Bool :=
  match l.suspicion with
  | .watch => true
  | .hunt _ => true
  | .clear => kDark ≤ l.cadence + 1
  | .unresolved => kDark ≤ l.cadence + 1

/-- The supervisor's answer at a cut of a RUNNING tree, after the staged changes of the cut: whether a dark window is due in the
round being planned, and the cadence count (R126). -/
def State.cadenceAct (s : State) (t : TreeId) : State :=
  s.modLight t fun l =>
    if l.darkDue (s.tree t).settings.kDark then { l with cadence := 0, darkAnswer := some true }
    else { l with cadence := l.cadence + 1, darkAnswer := some false }

/-- A cut of a RUNNING tree makes a dark window due (R126). -/
def State.cadenceDue (s : State) (t : TreeId) : Bool :=
  (s.tree t).phase = .running && (s.tree t).light.darkDue (s.tree t).settings.kDark

/-- ABANDON (R142). -/
def State.abandonHunt (s : State) (t : TreeId) : State :=
  match (s.tree t).light.suspicion with
  | .clear => s
  | .watch => s.modLight t fun l => { l with suspicion := .clear, observations := [] }
  | .unresolved => s.modLight t fun l => { l with suspicion := .clear, observations := [] }
  | .hunt h =>
    match h.phase with
    | .search _ => s.endHunt t .abandoned none
    | .trial c => (s.releaseCandidate t c).endHunt t .abandoned (some c)
    | .allQuiet c _ => (s.releaseCandidate t c).endHunt t .abandoned (some c)

end Sys2Proof.Machine
end

