-- ==== Sys2Proof/Machine/Enrol.lean ====
section
/-! DEFINITION. The enrolment engine (chapter 3): the window schedule, announcements, echoes, failures; and the reading
of the light of a window. -/

namespace Sys2Proof.Machine

/-! ## The light of a window (R47, R54) -/

/-- Gathers light that overlaps: `cur` is the stretch being gathered, which ends at `upTo`. -/
def gather (cur : List Burst) (upTo : Int) : List Burst → List (List Burst)
  | [] => [cur]
  | b :: rest =>
    if b.start < upTo then gather (cur ++ [b]) (max upTo b.stop) rest
    else cur :: gather [b] b.stop rest

/-- The stretches of light, in the order they begin: bursts that overlap are one stretch. -/
def stretches : List Burst → List (List Burst)
  | [] => []
  | b :: rest => gather [b] b.stop rest

/-- The byte-time a window opens. -/
def WindowRecord.opens (w : WindowRecord) : Int := 32 * w.opening
/-- The byte-time just after a window. -/
def WindowRecord.closes (w : WindowRecord) : Int := 32 * (w.opening + w.width)

/-- A burst has light within the window. -/
def burstWithin (b : Burst) (w : WindowRecord) : Bool := b.start < w.closes && w.opens < b.stop

/-- A burst lies wholly within the window. -/
def burstWholly (b : Burst) (w : WindowRecord) : Bool := w.opens ≤ b.start && b.stop ≤ w.closes

/-- The stretches with light within the window. -/
def windowStretches (w : WindowRecord) (light : List Burst) : List (List Burst) :=
  (stretches light).filter fun x => x.any fun b => burstWithin b w

/-- A stretch that is one clean burst of a type: wholly within the window, its check code holds, it overlaps no other
light, and its type fits the window (R47, R54, R185). -/
def cleanBurst (w : WindowRecord) (type : Nat) (stretch : List Burst) : Option Burst :=
  match stretch with
  | [b] => if burstWholly b w && b.checkOk && b.type == type then some b else none
  | _ => none

/-- Adds to the collision count (R41, R47). -/
def State.addCollisions (s : State) (t : TreeId) (n : Nat) : State :=
  s.modEngine t fun g => { g with collisions := min maxCount (g.collisions + n) }

/-- Releases the window record of a round (R41, R47, R54). -/
def State.releaseWindow (s : State) (t : TreeId) (round : Round) : State :=
  s.modEngine t fun g => { g with windows := g.windows.filter fun w => w.round ≠ round }

/-! ## Announcements (R48 to R51) -/

/-- The commitment clamp (R50): c is cut to 0 where B_t + c + H and the booked widths would exceed 1,875. -/
def State.clampContract (s : State) (t : TreeId) (k : Contract) : Contract × Bool :=
  let x := s.tree t
  if k.c = 0 ∨ s.bookingSum t + (k.c + x.settings.overhead) + x.bookedCall + x.bookedDark ≤ roundQuanta then (k, false)
  else ({ k with c := 0 }, true)

/-- A clean announcement is acted on (R48, R49, R51). -/
def State.announce (s : State) (t : TreeId) (serial : Serial) (token : Token) : State :=
  match s.holderOf serial with
  | some (t', tag, e) =>
    match if t' = t then e.reEnrol s.round else none with
    | some e' => (s.setEntry t tag e').raise t (.homeHeard t tag serial token true false)
    | none => s.raise t (.serialClash serial token t t' tag e.state)
  | none =>
    match s.admissionTest serial t with
    | none => s.raise t (.stranger serial token t)
    | some k =>
      match s.lowestVacant t with
      | none => s.raise t (.enrolFailed t 0 serial .treeFull (some token) none false)
      | some tag =>
        let r := s.clampContract t k
        (s.setEntry t tag (newHeard serial s.round r.1)).raise t (.homeHeard t tag serial token false r.2)

/-- The end of a call window (R47): collisions are counted, and up to 8 clean announcements are acted on in order. -/
def State.callWindow (s : State) (t : TreeId) (light : List Burst) : State :=
  match (s.tree t).engine.windows.find? (fun w => w.round = s.round ∧ w.kind = .call) with
  | none => s
  | some w =>
    let found := windowStretches w light
    let clean := found.filterMap (cleanBurst w 2)
    let s1 := s.addCollisions t (found.length - clean.length)
    let s2 := (clean.take 8).foldl (fun acc b => acc.announce t b.serial b.token) s1
    s2.releaseWindow t s.round

/-! ## Probes (R54 to R56, R61) -/

/-- An enrolment fails (R26, R61). -/
def State.failEnrolment (s : State) (t : TreeId) (tag : Nat) (reason : FailReason) (roundTrip : Option Nat) : State :=
  match s.entry t tag with
  | none => s
  | some e =>
    match e.failEnrolment with
    | .declined => s
    | .toVacant =>
      (s.vacate t tag).raise t (.enrolFailed t tag e.serial reason none roundTrip false)
    | .toSilent e' =>
      (s.setEntry t tag e').raise t (.enrolFailed t tag e.serial reason none roundTrip true)

/-- An echo of lag λ for a HEARD entry (R55): e = T − ρ where ρ = N + λ is at most T, OUT_OF_REACH otherwise. -/
def State.takeEcho (s : State) (t : TreeId) (tag lag : Nat) : State :=
  let x := (s.tree t).settings
  let roundTrip := x.nearBound + lag
  if roundTrip ≤ x.target then s.modEntry t tag fun e => (e.toTimed (x.target - roundTrip)).getD e
  else s.failEnrolment t tag .outOfReach (some roundTrip)

/-- "No echo" for a HEARD entry (R56): its probe tries rise, and at 3 it fails with NO_ECHO. -/
def State.noEcho (s : State) (t : TreeId) (tag : Nat) : State :=
  match s.entry t tag with
  | none => s
  | some e =>
    match e.body with
    | .heard f =>
      if 3 ≤ f.tries + 1 then s.failEnrolment t tag .noEcho none
      else s.setEntry t tag { e with body := .heard { f with tries := f.tries + 1 } }
    | _ => s

/-- The probed entry of a window record, where it still stands: the same occupant, still HEARD (R54). -/
def State.stillProbed (s : State) (t : TreeId) (tag : Nat) (occupied : Round) : Bool :=
  match s.entry t tag with
  | none => false
  | some e => e.occupied == occupied && e.state == .heard

/-- The end of a probe window (R54): the echo of the probed serial or "no echo"; all other light is collisions. -/
def State.probeWindow (s : State) (t : TreeId) (light : List Burst) : State :=
  match (s.tree t).engine.windows.find? (fun w => w.round = s.round) with
  | none => s
  | some w =>
    match w.kind with
    | .call => s
    | .probe tag serial occupied =>
      let found := windowStretches w light
      let echo := (found.filterMap (cleanBurst w 3)).find? fun b => b.serial = serial
      let s1 := s.addCollisions t (found.length - if echo.isSome then 1 else 0)
      let s2 :=
        if s.stillProbed t tag occupied then
          match echo with
          | some b => s1.takeEcho t tag (b.start - w.opens).toNat
          | none => s1.noEcho t tag
        else s1
      s2.releaseWindow t s.round

/-! ## The schedule (R43 to R45) -/

/-- A window record names an entry (R44). -/
def Engine.names (g : Engine) (tag : Nat) (occupied : Round) : Bool :=
  g.windows.any fun w =>
    match w.kind with
    | .call => false
    | .probe tag' _ occupied' => tag' = tag && occupied' = occupied

/-- The HEARD entries of a tree that no window record names, with their heard rounds, in ascending tag (R44). -/
def State.eligible (s : State) (t : TreeId) : List (Nat × Round) :=
  (s.treeEntries t).filterMap fun x =>
    match x.2.body with
    | .heard f => if (s.tree t).engine.names x.1 x.2.occupied then none else some (x.1, f.heardRound)
    | _ => none

/-- The entry with the oldest heard round, the lower tag where two are equal (R44). -/
def oldestHeard : List (Nat × Round) → Option (Nat × Round)
  | [] => none
  | a :: rest => some (rest.foldl (fun best x => if laterThan best.2 x.2 then x else best) a)

/-- The kind of window chosen at a due cut (R44): PROBE of the oldest eligible HEARD entry, else CALL where calls are ON. -/
def State.chooseWindow (s : State) (t : TreeId) : WindowAnswer :=
  match oldestHeard (s.eligible t) with
  | some (tag, _) => .window (.probe tag)
  | none => if (s.tree t).engine.calls then .window .call else .noWindow

/-- The engine acts at a cut of a RUNNING tree, after the staged changes of the cut (R43, R45): the schedule count, the deferred
mark, and the choice at a due cut that is not deferred. -/
def State.scheduleAct (s : State) (t : TreeId) : State :=
  let x := s.tree t
  if x.engine.deferred then
    if s.hunting t then s.modEngine t fun g => { g with chosen := some .noWindow }
    else s.modEngine t fun g => { g with deferred := false, count := 0, chosen := some (s.chooseWindow t) }
  else if x.settings.kCall ≤ x.engine.count + 1 then
    if s.hunting t then s.modEngine t fun g => { g with count := 0, deferred := true, chosen := some .noWindow }
    else s.modEngine t fun g => { g with count := 0, chosen := some (s.chooseWindow t) }
  else s.modEngine t fun g => { g with count := g.count + 1, chosen := some .noWindow }

/-- A cut of a RUNNING tree is due for a window, or sets the deferred mark in a hunt (R43, R45). -/
def State.scheduleDue (s : State) (t : TreeId) : Bool :=
  let x := s.tree t
  x.phase = .running &&
    if x.engine.deferred then !s.hunting t else x.settings.kCall ≤ x.engine.count + 1

end Sys2Proof.Machine
end

