-- ==== Sys2Proof/Machine/Metering.lean ====
section
/-! DEFINITION. The meter bank and the usage journal (chapters 9 and 10): counting, watches, opening and closing meters,
records, interval closes. -/

namespace Sys2Proof.Machine

/-- Meters just opened at a cut (R148), or just zeroed by a written close (R154). -/
def zeroMeters (cut : Round) (partialSpan : Bool) : Meters :=
  { openedCut := cut, up := Quad.all 0, down := Quad.all 0, withheld := Quad.all 0, granted := 0, inService := 0,
    hushed := 0, fenced := 0, partialSpan := partialSpan, saturated := false, cappedDuring := false }

/-- The meters of a slot; none where they are closed. -/
def State.meterOf (s : State) (t : TreeId) (tag : Nat) : Option Meters := Store.read (slotOf t tag) s.meters

/-- Opens the meters of a slot at the round in progress, with the partial mark; open meters stay as they are (R148). -/
def State.openMeters (s : State) (t : TreeId) (tag : Nat) : State :=
  match s.meterOf t tag with
  | some _ => s
  | none => { s with meters := Store.write (slotOf t tag) (zeroMeters s.round true) s.meters }

/-- Changes the meters of a slot; closed meters count nothing (R148). -/
def State.modMeters (s : State) (t : TreeId) (tag : Nat) (f : Meters → Meters) : State :=
  { s with meters := Store.modify (slotOf t tag) f s.meters }

/-- Adds up bytes in a band, saturating (R149, R150). -/
def Meters.addUp (m : Meters) (band : BandId) (n : Nat) : Meters :=
  let r := satAdd maxBytes (m.up.get band) n
  { m with up := m.up.set band r.1, saturated := m.saturated || r.2 }

/-- Adds down bytes in a band, saturating (R149, R151). -/
def Meters.addDown (m : Meters) (band : BandId) (n : Nat) : Meters :=
  let r := satAdd maxBytes (m.down.get band) n
  { m with down := m.down.set band r.1, saturated := m.saturated || r.2 }

/-- Adds withheld bytes in a band, saturating (R149, R151). -/
def Meters.addWithheld (m : Meters) (band : BandId) (n : Nat) : Meters :=
  let r := satAdd maxBytes (m.withheld.get band) n
  { m with withheld := m.withheld.set band r.1, saturated := m.saturated || r.2 }

/-- Adds granted quanta, saturating (R149, R152). -/
def Meters.addGranted (m : Meters) (n : Nat) : Meters :=
  let r := satAdd maxCount m.granted n
  { m with granted := r.1, saturated := m.saturated || r.2 }

/-- Counts one round by its entry mark, saturating (R149, R152). -/
def Meters.addRound (m : Meters) (mark : Option EntryMark) : Meters :=
  match mark with
  | none => m
  | some .inService =>
    let r := satAdd maxCount m.inService 1
    { m with inService := r.1, saturated := m.saturated || r.2 }
  | some .hushed =>
    let r := satAdd maxCount m.hushed 1
    { m with hushed := r.1, saturated := m.saturated || r.2 }
  | some .fenced =>
    let r := satAdd maxCount m.fenced 1
    { m with fenced := r.1, saturated := m.saturated || r.2 }

/-! ## Watches (R157, R158) -/

/-- The selected part of a count: one band, or the sum of all four (R157). -/
def bandSum (q : Quad Nat) (band : Option BandId) : Nat :=
  match band with
  | some b => q.get b
  | none => q.toList.sum

/-- The selected sum of a watch on meters; closed meters read as zeros (R157). -/
def Watch.selectedSum (w : Watch) (m : Option Meters) : Nat :=
  match m with
  | none => 0
  | some m =>
    match w.direction with
    | .up => bandSum m.up w.band
    | .down => bandSum m.down w.band
    | .both => bandSum m.up w.band + bandSum m.down w.band

/-- The serial of a slot's occupant; 0 where the slot is VACANT. -/
def State.serialOf (s : State) (t : TreeId) (tag : Nat) : Serial :=
  match s.entry t tag with
  | some e => e.serial
  | none => 0

/-- A watch fires: it becomes FIRED, WATCH_FIRED is raised, and a THROTTLE sets the entry's capped mark and the slot's
capped-during mark (R158). -/
def State.fireWatch (s : State) (n : Nat) (w : Watch) : State :=
  let s1 := { s with watches := Store.write n { w with fired := true } s.watches }
  let s2 := s1.raise w.tree
    (.watchFired n w.tree w.tag (s.serialOf w.tree w.tag) (w.selectedSum (s.meterOf w.tree w.tag)) w.threshold w.throttle)
  if w.throttle then
    (s2.modEntry w.tree w.tag fun e => { e with capped := true }).modMeters w.tree w.tag
      fun m => { m with cappedDuring := true }
  else s2

/-- Tests one watch: an ARMED watch whose selected sum is at least its threshold fires (R158). -/
def State.testWatch (s : State) (n : Nat) : State :=
  match Store.read n s.watches with
  | none => s
  | some w =>
    if w.fired = false ∧ w.threshold ≤ w.selectedSum (s.meterOf w.tree w.tag) then s.fireWatch n w else s

/-- The numbers of the watches that name a slot. -/
def State.watchesOn (s : State) (t : TreeId) (tag : Nat) : List Nat :=
  s.watches.filterMap fun x => if x.2.tree = t ∧ x.2.tag = tag then some x.1 else none

/-- Tests every watch of a slot, in ascending watch number: of two that fire by one count, the higher number's WATCH_FIRED is the
later (DESIGN CHOICE, log entry 31). -/
def State.testWatches (s : State) (t : TreeId) (tag : Nat) : State :=
  (s.watchesOn t tag).foldl State.testWatch s

/-- Counts up bytes of a slot in the current band, and tests its watches (R150, R158). -/
def State.countUp (s : State) (t : TreeId) (tag n : Nat) : State :=
  (s.modMeters t tag fun m => m.addUp s.band n).testWatches t tag

/-- Counts down bytes of a slot in the current band, and tests its watches (R151, R158). -/
def State.countDown (s : State) (t : TreeId) (tag n : Nat) : State :=
  (s.modMeters t tag fun m => m.addDown s.band n).testWatches t tag

/-- Counts withheld bytes of a slot in the current band; they enter no watch (R151, R157). -/
def State.countWithheld (s : State) (t : TreeId) (tag n : Nat) : State :=
  s.modMeters t tag fun m => m.addWithheld s.band n

/-- Every FIRED watch of a slot becomes ARMED (R154, R155). -/
def State.rearm (s : State) (t : TreeId) (tag : Nat) : State :=
  { s with
    watches := s.watches.map fun x => if x.2.tree = t ∧ x.2.tag = tag then (x.1, { x.2 with fired := false }) else x }

/-! ## Round-level counts (R152) -/

/-- The payload quanta of the grants of a record that name a tag and its present occupant (R152). -/
def grantedQuanta (grants : List Grant) (tag : Nat) (occupied : Round) : Nat :=
  ((grants.filter fun g => g.tag = tag ∧ g.occupied = occupied).map fun g => g.payload).sum

/-- Attributes the round-level counts of a plan record to the tree's slots whose meters are open (R152). -/
def State.attribute (s : State) (t : TreeId) (r : PlanRecord) : State :=
  { s with
    meters := s.meters.map fun x =>
      if slotTree x.1 = t.val then
        let tag := slotTag x.1
        let m := x.2.addRound (Store.read tag r.marks)
        match Store.read x.1 s.roster with
        | some e => (x.1, m.addGranted (grantedQuanta r.grants tag e.occupied))
        | none => (x.1, m)
      else x }

/-! ## The journal -/

/-- Puts a record at the back of the journal (R162). -/
def State.appendRecord (s : State) (r : Record) : State :=
  { s with journal := { s.journal with records := s.journal.records ++ [r] } }

/-- Raises JOURNAL_HIGH where the held count has risen from below the mark to at or above it, with the counts as they then stand
(R170), also where SET JOURNAL MARK, and no TAKE RECORDS, had lifted the mark above it (DESIGN CHOICE, log entry 32). -/
def State.journalRose (s : State) (before : Nat) : State :=
  let held := s.journal.records.length
  if before < s.journal.mark ∧ s.journal.mark ≤ held then
    s.raiseKeyless (.journalHigh held s.journal.booked s.journal.mark s.round)
  else s

/-- Writes a record that holds no booked place (R162, R170). -/
def State.writeRecord (s : State) (r : Record) : State := (s.appendRecord r).journalRose s.journal.records.length

/-- The record of a slot at a cut (R154, R155, R162). -/
def State.recordOf (s : State) (final : Bool) (t : TreeId) (tag : Nat) (e : Entry) (m : Meters) : Record :=
  { final := final, tree := t, tag := tag, serial := e.serial, interval := s.journal.intervals.get t,
    closedCut := s.round, meters := m, contract := e.contract }

/-- Releases one booked final place (R167). -/
def State.releasePlace (s : State) : State :=
  { s with journal := { s.journal with booked := s.journal.booked - 1 } }

/-- A FINAL record where the slot's meters are open: the record is written in its booked place, which is released after it
(R115), the meters closed and FIRED watches armed; where they are closed the place is released alone (R155, R168). A JOURNAL_HIGH
that the record raises shows the counts of that instant, whose sum the record leaves as it was (R168; DEDUCED, log entry 24). -/
def State.finalRecord (s : State) (t : TreeId) (tag : Nat) (e : Entry) : State :=
  match s.meterOf t tag with
  | none => s.releasePlace
  | some m =>
    let s1 := ((s.appendRecord (s.recordOf true t tag e m)).releasePlace).journalRose s.journal.records.length
    { s1 with meters := Store.erase (slotOf t tag) s1.meters }.rearm t tag

/-- How an interval close took a tree's slots so far. -/
structure CloseTally where
  written : Nat
  carried : Nat
deriving DecidableEq, Repr

/-- An interval close reaches one slot whose meters are open (R165): written while held plus booked is below the ceiling,
carried at or above it, left where the meters opened at this cut. -/
def State.closeSlot (s : State) (tally : CloseTally) (t : TreeId) (tag : Nat) : State × CloseTally :=
  match s.meterOf t tag, s.entry t tag with
  | some m, some e =>
    if m.openedCut = s.round then (s, tally)
    else if s.journal.records.length + s.journal.booked < journalCeiling then
      let s1 := s.writeRecord (s.recordOf false t tag e m)
      let s2 := { s1 with meters := Store.write (slotOf t tag) (zeroMeters s.round false) s1.meters }
      ((s2.rearm t tag).modEntry t tag fun e => { e with capped := false }, { tally with written := tally.written + 1 })
    else (s, { tally with carried := tally.carried + 1 })
  | _, _ => (s, tally)

/-- The tags of a tree whose meters are open, in ascending order. -/
def State.openTags (s : State) (t : TreeId) : List Nat :=
  s.meters.filterMap fun x => if slotTree x.1 = t.val then some (slotTag x.1) else none

/-- An interval close of one tree: its slots in ascending tag, the interval number, INTERVAL_CLOSED (R163, R165, R166). -/
def State.closeTree (s : State) (t : TreeId) : State :=
  let r := (s.openTags t).foldl (fun acc tag => acc.1.closeSlot acc.2 t tag) (s, { written := 0, carried := 0 })
  let s1 := r.1
  let number := s1.journal.intervals.get t
  let s2 := { s1 with journal := { s1.journal with intervals := s1.journal.intervals.set t (number + 1) } }
  s2.raise t (.intervalClosed t number s2.round r.2.written r.2.carried s2.journal.records.length s2.journal.booked)

/-- An interval close of one tree, or of ALL in ascending order (R164, R165). -/
def State.closeTrees (s : State) : Option TreeId → State
  | some t => s.closeTree t
  | none => allFour.foldl State.closeTree s

end Sys2Proof.Machine
end

