-- ==== Sys2Proof/Machine/Reception.lean ====
section
/-! DEFINITION. The upstream checker (chapter 5): which grant a burst belongs to, the outcome of each grant and its effects,
guards, idle stretches, dark windows, and the settling baseline (R4). -/

namespace Sys2Proof.Machine

/-! ## Grants and acceptance spans (R74, R75) -/

/-- The due start of a grant: the first byte-time of its second quantum (R75). -/
def Grant.dueStart (g : Grant) : Int := 32 * (g.start + 1)

/-- The quantum just after a grant. -/
def Grant.stop (g : Grant) : Nat := g.start + g.length

/-- The byte-time just after a grant's last quantum. -/
def Grant.endsAt (g : Grant) : Int := 32 * (g.start + g.length)

/-- A burst's light begins within the acceptance span of a grant: the due start less 24 to the due start plus 24 (R75). -/
def Grant.accepts (g : Grant) (start : Int) : Bool := g.dueStart - 24 ≤ start && start ≤ g.dueStart + 24

/-- The plan record that governs a round on a tree. -/
def Tree.record (x : Tree) (round : Round) : Option PlanRecord := x.plans.find? fun r => r.round = round

/-- The checker judges light: the tree is RUNNING, and no stop or fault has ended the judgement of the round (R1, R4, R6). -/
def Tree.judges (x : Tree) : Bool := x.phase = .running && !x.checker.muted

/-- The grants of a round that can still be judged: those of the governing record, or the one carried over from the round
before. -/
def State.grantsOf (s : State) (t : TreeId) (round : Round) : List Grant :=
  let x := s.tree t
  if round = s.round then
    match x.record s.round with
    | some r => r.grants
    | none => []
  else
    match x.checker.carried with
    | some c => if c.round = round then [c.grant] else []
    | none => []

/-- How far the judgement of a grant has come. -/
def State.markOf (s : State) (t : TreeId) (round : Round) (tag : Nat) : Option GrantMark :=
  let k := (s.tree t).checker
  if round = s.round then Store.read tag k.marks
  else
    match k.carried with
    | some c => if c.round = round ∧ c.grant.tag = tag then c.mark else none
    | none => none

/-- Records how far the judgement of a grant has come. -/
def State.setMark (s : State) (t : TreeId) (round : Round) (tag : Nat) (mark : GrantMark) : State :=
  s.modChecker t fun k =>
    if round = s.round then { k with marks := Store.write tag mark k.marks }
    else
      { k with
        carried := k.carried.map fun c => if c.round = round ∧ c.grant.tag = tag then { c with mark := some mark } else c }

/-- Whether a grant still waits for its outcome: each grant receives exactly one (R76). -/
def undecided (mark : Option GrantMark) : Bool :=
  match mark with
  | none => true
  | some .foreign => true
  | some .burning => true
  | some (.heard ..) => false
  | some .misplaced => false
  | some .missed => false

/-- Whether the guard of a judged burst is still to be judged (R87). -/
def guardOpen (mark : Option GrantMark) : Bool :=
  match mark with
  | some (.heard _ _ _ isOpen) => isOpen
  | _ => false

/-- The occupant a grant was given to, where it still holds the slot (R78). -/
def State.grantee (s : State) (t : TreeId) (g : Grant) : Option Entry :=
  match s.entry t g.tag with
  | some e => if e.occupied = g.occupied then some e else none
  | none => none

/-! ## Accepted bursts (R77 to R81) -/

/-- A delay corrected by an offset, clamped to 0 to T (R77). -/
def correctedDelay (e : Nat) (offset : Int) (target : Nat) : Nat := min target ((e : Int) - offset).toNat

/-- The correction of R77 for an entry that holds a delay: none up to 4 byte-times; otherwise e is corrected, ADJUST becomes
owed, and REACH_LIMIT is raised where e was clamped. -/
def State.correctDelay (s : State) (t : TreeId) (tag : Nat) (offset : Int) : State :=
  if offset.natAbs ≤ 4 then s
  else
    match s.entry t tag with
    | none => s
    | some e =>
      match e.delay with
      | none => s
      | some d =>
        let target := (s.tree t).settings.target
        let d' := correctedDelay d offset target
        let s1 := s.setEntry t tag ((e.setDelay d').owe .adjust)
        if (d : Int) - offset < 0 ∨ (target : Int) < (d : Int) - offset then
          s1.raise t (.reachLimit t tag e.serial offset d d')
        else s1

/-- The need a backlog report gives: the report in quanta, rounded up, at most 65,535 (R79). -/
def needOf (report : Nat) : Nat := min 65535 (quantaUp report)

/-- The bytes a list of upstream packets holds. -/
def upBytes (packets : List UpPacket) : Nat := (packets.map fun p => p.payload.length).sum

/-- Hands the packets of a burst to the delivery buffer, all or none, and counts their bytes (R80, R81). -/
def State.deliver (s : State) (t : TreeId) (tag : Nat) (packets : List (List Byte)) : State :=
  let labelled := packets.map fun p => ({ tree := t, tag := tag, payload := p } : UpPacket)
  if upBytes s.upBuffer + upBytes labelled ≤ bufferBytes then
    { s with upBuffer := s.upBuffer ++ labelled }.countUp t tag (upBytes labelled)
  else s

/-- The entry of a slot takes the need of a report and, where ACTIVE, a miss count of 0 (R78, R79). -/
def Entry.hear (e : Entry) (need : Nat) : Entry :=
  match e.body with
  | .active f => { e with body := .active { f with need := need, missCount := 0 } }
  | .fenced f => { e with body := .fenced { f with need := need } }
  | _ => e

/-- A greeting makes its TIMED entry ACTIVE: the meters of a new home open, and HOME_ACTIVE is raised (R27, R59, R148). -/
def State.greet (s : State) (t : TreeId) (tag : Nat) (need : Nat) (round : Round) : State :=
  match s.entry t tag with
  | none => s
  | some e =>
    match e.body with
    | .timed f =>
      let s1 := s.modEntry t tag fun e => (e.toActive need round).getD e
      let s2 := if f.former.isNone then s1.openMeters t tag else s1
      s2.raise t (.homeActive t tag e.serial f.former.isSome)
    | _ => s

/-- The effects of an accepted burst, by the entry's state at judgement (R78). -/
def State.acceptBurst (s : State) (t : TreeId) (round : Round) (g : Grant) (offset : Int) (report : Nat)
    (packets : List (List Byte)) : State :=
  match s.grantee t g with
  | none => s
  | some e =>
    match e.body with
    | .active _ =>
      ((s.correctDelay t g.tag offset).modEntry t g.tag fun e => e.hear (needOf report)).deliver t g.tag packets
    | .timed _ =>
      if g.kind = .greeting then
        ((s.correctDelay t g.tag offset).greet t g.tag (needOf report) round).deliver t g.tag packets
      else s
    | .fenced _ =>
      ((s.correctDelay t g.tag offset).modEntry t g.tag fun e => e.hear (needOf report)).deliver t g.tag packets
    | .silent _ => (s.correctDelay t g.tag offset).deliver t g.tag packets
    | .heard _ => s
    | .leaving _ => s

/-! ## Damaged bursts and misses (R60, R82 to R84) -/

/-- A counted greeting miss: the third fails the enrolment (R60). -/
def State.greetingMiss (s : State) (t : TreeId) (tag : Nat) : State :=
  match s.entry t tag with
  | none => s
  | some e =>
    match e.body with
    | .timed f =>
      if f.hushed ∨ e.owed.wake then s
      else if 3 ≤ f.misses + 1 then s.failEnrolment t tag .noGreeting none
      else s.setEntry t tag { e with body := .timed { f with misses := f.misses + 1 } }
    | _ => s

/-- The effects of a damaged burst (R82). -/
def State.damageBurst (s : State) (t : TreeId) (g : Grant) : State :=
  match s.grantee t g with
  | none => s
  | some e =>
    match e.body with
    | .active f => s.setEntry t g.tag { e with body := .active { f with missCount := 0 } }
    | .timed _ => if g.kind = .greeting then s.greetingMiss t g.tag else s
    | _ => s

/-- The effects of a missed or misplaced grant (R83, R84). HOME_SILENT is raised before what the supervisor raises where a suspect
leaves the hunt (DESIGN CHOICE, log entry 37). -/
def State.missGrant (s : State) (t : TreeId) (g : Grant) : State :=
  match s.grantee t g with
  | none => s
  | some e =>
    match e.body with
    | .active f =>
      if f.hushed ∨ e.owed.wake then s
      else
        let count := min 16 (f.missCount + 1)
        if (s.tree t).settings.silence ≤ count then
          ((s.modEntry t g.tag fun e => e.toSilent.getD e).raise t (.homeSilent t g.tag e.serial)).leaveHunt t g.tag
        else s.setEntry t g.tag { e with body := .active { f with missCount := count } }
    | .timed _ => if g.kind = .greeting then s.greetingMiss t g.tag else s
    | _ => s

/-! ## The judgement of grants (R76) -/

/-- What the end of a burst's light says of the grant it belongs to (R76, R185). -/
inductive BurstOutcome where
  | accepted (packets : List (List Byte))
  | damaged
  | foreign
deriving DecidableEq, Repr

/-- Reads a burst against its grant: damaged where its check code fails or its packets overrun its bytes used; of another
home where the header's tag or type is not the grant's (R76, R185). -/
def judgeBurst (b : Burst) (g : Grant) : BurstOutcome :=
  if b.checkOk then
    if b.tag = g.tag ∧ b.type = 1 then
      match b.packets with
      | some packets => .accepted packets
      | none => .damaged
    else .foreign
  else .damaged

/-- The latest byte-time at which the light of a grant's burst may end: 24 byte-times after the grant's last quantum (R76). -/
def Grant.latestEnd (g : Grant) : Int := g.endsAt + 24

/-- A grant whose burst still shines at the latest end is damaged, and the burst's own light is taken to end there (R76). -/
def State.runOn (s : State) (t : TreeId) (round : Round) (g : Grant) : State :=
  (s.damageBurst t g).setMark t round g.tag (.heard false g.latestEnd true true)

/-- The end of a burst's light (R76): the grant whose acceptance span it began in gets its outcome. A burst whose light ended after
the grant's latest end ran on, whatever its header and check code say; where no BURST_RUN_ON came at that instant the command of
its end decides so (log entry 4). Of two bursts that began in
one span the first accepted or damaged one decides, and one after another home's burst may still be accepted (DESIGN CHOICE, log
entry 27). A burst that belongs to no grant has no effect here. One whose header is another's makes the grant misplaced, at the
grant's end, or at once where that is past (log entry 14). -/
def State.burstEnds (s : State) (t : TreeId) (round : Round) (b : Burst) : State :=
  if (s.tree t).judges then
    match (s.grantsOf t round).find? (fun g => g.accepts b.start) with
    | none => s
    | some g =>
      let mark := s.markOf t round g.tag
      if undecided mark then
        if g.latestEnd < b.stop then s.runOn t round g
        else match judgeBurst b g with
        | .accepted packets =>
          (s.acceptBurst t round g (b.start - g.dueStart) b.report packets).setMark t round g.tag
            (.heard true b.stop false true)
        | .damaged => (s.damageBurst t g).setMark t round g.tag (.heard false b.stop false true)
        | .foreign =>
          if mark = some .burning then (s.missGrant t g).setMark t round g.tag .misplaced
          else s.setMark t round g.tag .foreign
      else s
  else s

/-- A burst still shines 24 byte-times after its grant's last quantum: damaged, its own light taken to end there (R76). -/
def State.burstRunsOn (s : State) (t : TreeId) (round : Round) (start : Int) : State :=
  if (s.tree t).judges then
    match (s.grantsOf t round).find? (fun g => g.accepts start) with
    | none => s
    | some g =>
      if undecided (s.markOf t round g.tag) then s.runOn t round g else s
  else s

/-- Light that lies in a grant's quanta after its guard quantum and belongs to no grant (R76): light of a burst that began in
no acceptance span, or what a burst that ran on sent beyond its own guard. -/
def looseLight (grants : List Grant) (g : Grant) (l : LightSpan) : Bool :=
  let lo := g.dueStart
  let hi := g.endsAt
  match grants.find? (fun x => x.accepts l.start) with
  | none => l.start < hi && lo < l.stop
  | some own => own.tag ≠ g.tag && (max l.start (own.endsAt + 32)) < hi && max lo (own.endsAt + 32) < l.stop

/-- The end of a grant's last quantum (R76): without an accepted or damaged burst it is misplaced or missed. Where a burst that
began in its acceptance span still shines, the outcome waits for the end of that light. -/
def State.grantEnds (s : State) (t : TreeId) (round : Round) (tag : Nat) (light : List LightSpan) : State :=
  if (s.tree t).judges then
    let grants := s.grantsOf t round
    match grants.find? (fun g => g.tag = tag) with
    | none => s
    | some g =>
      match s.markOf t round tag with
      | some .foreign => (s.missGrant t g).setMark t round tag .misplaced
      | none =>
        if light.any fun l => g.accepts l.start then s.setMark t round tag .burning
        else if light.any (looseLight grants g) then (s.missGrant t g).setMark t round tag .misplaced
        else (s.missGrant t g).setMark t round tag .missed
      | some _ => s
  else s

/-! ## Guards (R87, R88) -/

/-- Whether a guard is measured: a guard within the burst's round always; a guard in quantum 0 of the next round where that
round has a plan record whose call or probe window does not begin there (R87). -/
def State.guardMeasured (s : State) (t : TreeId) (round : Round) (g : Grant) : Bool :=
  if g.stop < roundQuanta then true
  else
    s.round = round + 1 &&
    match (s.tree t).record s.round with
    | none => false
    | some r =>
      match r.window with
      | some w => w.opening ≠ 0
      | none => true

/-- The round a guard lies in: the burst's, or the next where the grant ended with quantum 1,874 (R87). -/
def Grant.guardRound (g : Grant) (round : Round) : Round := if g.stop < roundQuanta then round else round + 1

/-- The beginning of a burst that began in the acceptance span of the grant that follows a guard, in byte-times counted from the
start of the burst's round. None follows the guard that ends a round. -/
def State.nextBegin (s : State) (t : TreeId) (round : Round) (g : Grant) (begins : List Int) : Option Int :=
  match (s.tree t).record (g.guardRound round) with
  | none => none
  | some r =>
    let shift : Int := if g.stop < roundQuanta then 0 else roundBytes
    let first := if g.stop < roundQuanta then g.stop else 0
    match r.grants.find? (fun x => x.start = first) with
    | none => none
    | some x => begins.find? fun b => x.accepts (b - shift)

/-- The level of a guard (R87): readings before the end of the burst's own light, and from the beginning of the next grant's
burst on, are left out. -/
def guardLevel (g : Grant) (lightEnd : Int) (next : Option Int) (samples : List Sample) : Nat :=
  let hi := match next with
    | some b => min (g.endsAt + 32) b
    | none => g.endsAt + 32
  levelOver (max g.endsAt lightEnd) hi samples

/-- Adds an outcome to a history of up to 8 bursts; a ninth removes the oldest (R88). -/
def addOutcome (history : List Bool) (overrun : Bool) : List Bool :=
  (history ++ [overrun]).drop (history.length + 1 - 8)

/-- The outcome of a guard enters the history of an ACTIVE or FENCED entry (R78, R88), also where R29 and R143 call the history
of a FENCED entry frozen (DESIGN CHOICE, log entry 42). -/
def Entry.addOutcome (e : Entry) (overrun : Bool) : Entry :=
  match e.body with
  | .active f => { e with body := .active { f with history := Machine.addOutcome f.history overrun } }
  | .fenced f => { e with body := .fenced { f with history := Machine.addOutcome f.history overrun } }
  | _ => e

/-- A guard is judged (R87, R88): the outcome enters the history of the same occupant, and an overrun is handed to the light
supervisor with the round the guard lies in (DESIGN CHOICE, log entry 25). The history of a FENCED entry takes the outcome of a
damaged burst too, as R88 says and R82 does not (DESIGN CHOICE, log entry 26), and that of a burst accepted while the entry was
SILENT, as R88 says and R78 does not (DESIGN CHOICE, log entry 35). -/
def State.judgeGuard (s : State) (t : TreeId) (round : Round) (g : Grant) (level : Nat) : State :=
  match s.grantee t g with
  | none => s
  | some _ =>
    let overrun : Bool := (s.tree t).light.effectiveLimit < level
    let s1 := s.modEntry t g.tag fun e => e.addOutcome overrun
    if overrun then s1.judgeOverrun t g.tag (g.guardRound round) level else s1

/-- The end of the guard of an accepted or damaged burst (R87). A guard in the next round ends only in that round; a guard that
ends with its round may be taken before or after the next round begins (R69). -/
def State.guardEnds (s : State) (t : TreeId) (round : Round) (tag : Nat) (begins : List Int) (samples : List Sample) :
    State :=
  if (s.tree t).judges then
    match (s.grantsOf t round).find? (fun g => g.tag = tag) with
    | none => s
    | some g =>
      match s.markOf t round tag with
      | some (.heard ok lightEnd ranOn true) =>
        if round = s.round ∧ roundQuanta ≤ g.stop then s else
        let closed := s.setMark t round tag (.heard ok lightEnd ranOn false)
        if s.guardMeasured t round g then
          closed.judgeGuard t round g (guardLevel g lightEnd (s.nextBegin t round g begins) samples)
        else closed
      | _ => s
  else s

/-- Quantum 0 of the round in progress holds the measured guard of a burst of the round before (R87, R89, R90). The guard quantum of
a missed or misplaced grant is none: a dark window's level takes it in (DESIGN CHOICE, log entry 34). -/
def Tree.guardAtZero (x : Tree) : Bool :=
  match x.checker.carried with
  | some c =>
    match c.mark with
    | some (.heard ..) => c.grant.stop = roundQuanta
    | _ => false
  | none => false

/-! ## Idle stretches (R89) -/

/-- The first quantum of the idle stretch of a plan: after the guard of its last grant, else after its windows, else
quantum 0, or 1 where quantum 0 holds a measured guard (R89). -/
def idleStart (r : PlanRecord) (guardAtZero : Bool) : Nat :=
  match r.grants.getLast? with
  | some g => g.stop + 1
  | none =>
    match r.window with
    | some w => w.opening + w.width
    | none =>
      match r.dark with
      | some w => w
      | none => if guardAtZero then 1 else 0

/-- The idle stretch of the round in progress whose level is still to be taken: its first quantum; none where the tree judges
no light, the level has been taken, or the stretch has fewer than 8 quanta (R89). -/
def Tree.idleOpen (x : Tree) (round : Round) : Option Nat :=
  match x.record round with
  | none => none
  | some r =>
    let first := idleStart r x.guardAtZero
    if x.judges ∧ x.checker.idleTaken = false ∧ first + 8 ≤ roundQuanta then some first else none

/-- The level of an idle stretch: one above the effective limit is a stray observation of its round (R89). -/
def State.judgeIdle (s : State) (t : TreeId) (round : Round) (first : Nat) (samples : List Sample) : State :=
  let level := levelOver (32 * first) roundBytes samples
  if (s.tree t).light.effectiveLimit < level then s.judgeStray t round level else s

/-- The end of an idle stretch of at least 8 quanta (R89). It is the instant the round ends, and may be taken before or after the
next round begins (R12, R69): where the stretch of the round before is still to be judged, it is that stretch's end (log entry
5). The readings carry byte-times from the start of the stretch's own round. -/
def State.idleEnds (s : State) (t : TreeId) (samples : List Sample) : State :=
  let x := s.tree t
  if x.judges then
    match x.checker.carriedIdle with
    | some c => (s.modChecker t fun k => { k with carriedIdle := none }).judgeIdle t c.round c.first samples
    | none =>
      match x.idleOpen s.round with
      | none => s
      | some first => (s.modChecker t fun k => { k with idleTaken := true }).judgeIdle t s.round first samples
  else s

/-! ## Dark windows (R4, R90) -/

/-- The level of a dark window; a measured guard in its first quantum is left out (R87, R90). -/
def darkLevel (width : Nat) (guardAtZero : Bool) (samples : List Sample) : Nat :=
  levelOver (if guardAtZero then 32 else 0) (32 * width) samples

/-- The fill of a downstream payload buffer: the sum of the payload lengths of its packets (R70). -/
def downBytes (packets : List DownPacket) : Nat := (packets.map fun p => p.payload.length).sum

/-- The packet that waits at the traffic interface is taken at the first instant its tree can take it (R71): into the buffer
where there is room, and discarded where the tree is DOWN or FAULTED. -/
def State.takeHeldPacket (s : State) : State :=
  match s.heldPacket with
  | none => s
  | some p =>
    let x := s.tree p.tree
    if x.phase = .down ∨ x.phase = .faulted then { s with heldPacket := none }
    else if downBytes x.framer.buffer + p.packet.payload.length ≤ bufferBytes then
      { s with heldPacket := none }.modFramer p.tree fun f => { f with buffer := f.buffer ++ [p.packet] }
    else s

/-- The baseline is judged at the sixteenth settling window (R4, R70). -/
def State.judgeBaseline (s : State) (t : TreeId) : State :=
  let baseline := (s.tree t).light.baseline
  if 2048 < baseline then
    ((s.modTree t fun x =>
      { x with
        phase := .faulted
        plans := x.plans.filter fun r => r.round = s.round
        framer := { x.framer with buffer := [] }
        checker := { x.checker with muted := true, marks := [], carried := none, carriedIdle := none } }).raise t
      (.treeFault t baseline)).takeHeldPacket
  else
    (s.modTree t fun x => { x with phase := .running, light := { x.light with suspicion := .clear } }).raise t
      (.treeReady t baseline)

/-- The end of a dark window (R4, R90, R127). -/
def State.darkEnds (s : State) (t : TreeId) (samples : List Sample) : State :=
  let x := s.tree t
  match x.record s.round with
  | none => s
  | some r =>
    match r.dark with
    | none => s
    | some width =>
      if x.checker.muted ∨ x.checker.darkTaken then s
      else
        let level := darkLevel width x.guardAtZero samples
        let s1 := s.modChecker t fun k => { k with darkTaken := true }
        match x.phase with
        | .down => s
        | .faulted => s
        | .running => s1.judgeDark t level
        | .settling =>
          if r.settlingNo = 0 then s1
          else
            let s2 := s1.modLight t fun l => { l with baseline := max l.baseline level }
            if r.settlingNo = 16 then s2.judgeBaseline t else s2

end Sys2Proof.Machine
end

