-- ==== Sys2Proof/Machine/ExecLight.lean ====
section
/-! DEFINITION. The meanings of the light rows: what the receiver and the level input of a tree bring at the ends of windows,
bursts, grants, guards and idle stretches (log entries 1 and 7). -/

namespace Sys2Proof.Machine

/-- DARK_WINDOW_END (R90, R127, R4). -/
def execDarkWindowEnd (tree : TreeId) (samples : List Sample) (s : State) : Host.Outcome State Fault Refusal :=
  .next (s.darkEnds tree samples)

/-- CALL_WINDOW_END (R47). -/
def execCallWindowEnd (tree : TreeId) (light : List Burst) (s : State) : Host.Outcome State Fault Refusal :=
  .next (s.callWindow tree light)

/-- PROBE_WINDOW_END (R54). -/
def execProbeWindowEnd (tree : TreeId) (light : List Burst) (s : State) : Host.Outcome State Fault Refusal :=
  .next (s.probeWindow tree light)

/-- BURST_END (R76). -/
def execBurstEnd (tree : TreeId) (round : Round) (burst : Burst) (s : State) : Host.Outcome State Fault Refusal :=
  .next (s.burstEnds tree round burst)

/-- BURST_RUN_ON (R76). -/
def execBurstRunOn (tree : TreeId) (round : Round) (start : Int) (s : State) : Host.Outcome State Fault Refusal :=
  .next (s.burstRunsOn tree round start)

/-- GRANT_END (R76). -/
def execGrantEnd (tree : TreeId) (round : Round) (tag : Nat) (light : List LightSpan) (s : State) :
    Host.Outcome State Fault Refusal :=
  .next (s.grantEnds tree round tag light)

/-- GUARD_END (R87). -/
def execGuardEnd (tree : TreeId) (round : Round) (tag : Nat) (begins : List Int) (samples : List Sample) (s : State) :
    Host.Outcome State Fault Refusal :=
  .next (s.guardEnds tree round tag begins samples)

/-- IDLE_STRETCH_END (R89). -/
def execIdleStretchEnd (tree : TreeId) (samples : List Sample) (s : State) : Host.Outcome State Fault Refusal :=
  .next (s.idleEnds tree samples)

end Sys2Proof.Machine
end

