-- ==== Sys2Proof/Machine/Framer.lean ====
section
/-! DEFINITION. The downstream framer (chapter 4): order places, sending, packing, the frame, and the beginning of a round;
and the packets at the traffic interface. -/

namespace Sys2Proof.Machine

/-! ## Order places (R66, R67, section 12.2) -/

/-- The bytes an order place takes (section 12.2). -/
def OrderPlace.length : OrderPlace → Nat
  | .fence _ _ => 10
  | .drop _ _ => 10
  | .hush tags => 2 + tags.length
  | .wake tags => 2 + tags.length
  | .release _ => 2
  | .assign _ _ _ => 13
  | .probe _ _ => 10
  | .adjust _ _ => 5

/-- The bytes of a frame before its payload area: round header, window notice, plan, order places (R184). An empty enrolment
place takes one byte. -/
def headLength (grants : Nat) (enrolment : Option OrderPlace) (general : List OrderPlace) : Nat :=
  8 + 5 + (1 + 6 * grants) + (match enrolment with | some o => o.length | none => 1) + (general.map OrderPlace.length).sum

/-- The PROBE booked for the enrolment place of the frame that begins (R46, R66). -/
def State.bookedProbe (s : State) (t : TreeId) : Option Nat :=
  match (s.tree t).engine.bookedProbe with
  | some (frame, tag) => if frame = s.round then some tag else none
  | none => none

/-- The ASSIGN an entry owes, with the entry's e (R64). -/
def assignPlace (tag : Nat) (e : Entry) : OrderPlace := .assign e.serial tag (e.delay.getD 0)

/-- The enrolment place (R66): the PROBE booked for the frame; else the ASSIGN of the lowest tag among TIMED entries that owe
it; else empty. -/
def State.enrolmentPlace (s : State) (t : TreeId) : Option OrderPlace :=
  match s.bookedProbe t with
  | some tag =>
    match s.entry t tag with
    | some e => if e.owed.probe then some (.probe e.serial tag) else none
    | none => none
  | none =>
    ((s.treeEntries t).find? fun x => x.2.state = .timed && x.2.owed.assign).map fun x => assignPlace x.1 x.2

/-- The entries that owe an order, in ascending tag. -/
def owing (k : OrderKind) (entries : List (Nat × Entry)) : List (Nat × Entry) := entries.filter fun x => x.2.owed.has k

/-- One list order for all the tags that owe it; nothing where none does (R67). -/
def listPlace (f : List Nat → OrderPlace) (tags : List Nat) : List OrderPlace := if tags = [] then [] else [f tags]

/-- The candidates for the general places by rank, in ascending tag within a rank (R67). -/
def candidates (entries : List (Nat × Entry)) : List OrderPlace :=
  (owing .fence entries).map (fun x => .fence x.2.serial x.1) ++
  (owing .drop entries).map (fun x => .drop x.2.serial x.1) ++
  listPlace .hush ((owing .hush entries).map Prod.fst) ++
  listPlace .wake ((owing .wake entries).map Prod.fst) ++
  (owing .release entries).map (fun x => .release x.1) ++
  (owing .assign entries).map (fun x => assignPlace x.1 x.2) ++
  (owing .probe entries).map (fun x => .probe x.2.serial x.1) ++
  (owing .adjust entries).map (fun x => .adjust x.1 (x.2.delay.getD 0))

/-- The seven general places: the first seven candidates, the order in the enrolment place left out (R67). -/
def generalPlaces (entries : List (Nat × Entry)) (enrolment : Option OrderPlace) : List OrderPlace :=
  ((candidates entries).filter fun o => some o ≠ enrolment).take 7

/-! ## Sending (R68) -/

/-- Takes a sent order out of an entry's owed set. -/
def Entry.sent (k : OrderKind) (e : Entry) : Entry := { e with owed := e.owed.remove k }

/-- An order counts as sent (R68): it leaves the owed set of each entry it addresses; WAKE clears the hushed mark, and DROP
makes the LEAVING entry VACANT (R32). -/
def State.sendOrder (t : TreeId) (s : State) (o : OrderPlace) : State :=
  match o with
  | .fence _ tag => s.modEntry t tag (Entry.sent .fence)
  | .drop _ tag => if s.slotState t tag = .leaving then s.vacate t tag else s.modEntry t tag (Entry.sent .drop)
  | .hush tags => tags.foldl (fun s tag => s.modEntry t tag (Entry.sent .hush)) s
  | .wake tags => tags.foldl (fun s tag => s.modEntry t tag fun e => (e.sent .wake).setHushed false) s
  | .release tag => s.modEntry t tag (Entry.sent .release)
  | .assign _ tag _ => s.modEntry t tag (Entry.sent .assign)
  | .probe _ tag => s.modEntry t tag (Entry.sent .probe)
  | .adjust tag _ => s.modEntry t tag (Entry.sent .adjust)

/-! ## Packing (R72) -/

/-- What packing leaves: the part after the counts, the packets in the frame, and the packets left in the buffer. -/
structure Packed where
  state : State
  sent : List DownPacket
  left : List DownPacket

/-- Packs payload from the oldest packet on (R72): ACTIVE is sent and counted down, FENCED is withheld and counted, every other
state is discarded uncounted; the first packet to be sent that does not fit the room ends the packing. -/
def packPayload (t : TreeId) : (room : Nat) → List DownPacket → List DownPacket → State → Packed
  | _, sent, [], s => { state := s, sent := sent, left := [] }
  | room, sent, p :: rest, s =>
    match s.slotState t p.tag with
    | .active =>
      if p.payload.length ≤ room then
        packPayload t (room - p.payload.length) (sent ++ [p]) rest (s.countDown t p.tag p.payload.length)
      else { state := s, sent := sent, left := p :: rest }
    | .fenced => packPayload t room sent rest (s.countWithheld t p.tag p.payload.length)
    | _ => packPayload t room sent rest s

/-! ## The frame (R63) -/

/-- Frame n of a tree at the start of round n (R63, R68, R72, R132): sent only where the tree holds a plan record for round
n + 1; its orders count as sent, its payload is packed, and the supervisor tests its quiet condition. -/
def State.beginFrame (s : State) (t : TreeId) : State :=
  match (s.tree t).record (s.round + 1) with
  | none => s.modFramer t fun f => { f with frame := none }
  | some r =>
    let enrolment := s.enrolmentPlace t
    let general := generalPlaces (s.treeEntries t) enrolment
    let s1 := (enrolment.toList ++ general).foldl (State.sendOrder t) s
    let s2 := s1.modEngine t fun g => { g with bookedProbe := none }
    let room := frameBytes - headLength r.grants.length enrolment general
    let packed := packPayload t room [] (s2.tree t).framer.buffer s2
    let frame : Frame :=
      { settling := r.settling, round := s.round, window := r.window, dark := r.dark, grants := r.grants,
        enrolment := enrolment, general := general, payload := packed.sent }
    (packed.state.modFramer t fun _ => { buffer := packed.left, frame := some frame }).quietTest t

/-! ## The beginning of a round (R9, R11, R12) -/

/-- A tree at the end of a round: the plan record of that round is released, and with it a window record of that round whose
end has not come (log entry 4); the checker starts afresh, with what is still to be judged at the instant the round ends carried
over: the last grant where it ended with quantum 1,874, or with quantum 1,873 and an open guard, and the idle stretch (R69, R87,
R106). -/
def Tree.roll (x : Tree) (old : Round) : Tree :=
  let carried : Option Carried :=
    match (x.record old).bind fun r => r.grants.getLast? with
    | some g =>
      let mark := Store.read g.tag x.checker.marks
      if x.checker.muted = false ∧ (g.stop = roundQuanta ∨ g.stop + 1 = roundQuanta ∧ guardOpen mark) then
        some { round := old, grant := g, mark := mark }
      else none
    | none => none
  { x with
    plans := x.plans.filter fun r => r.round ≠ old
    engine := { x.engine with windows := x.engine.windows.filter fun w => w.round ≠ old }
    checker :=
      { resetChecker with
        carried := carried, carriedIdle := (x.idleOpen old).map fun first => { round := old, first := first } } }

/-- Attributes the round-level counts of a tree from the record that governs the round in progress (R152). -/
def State.attributeRound (s : State) (t : TreeId) : State :=
  match (s.tree t).record s.round with
  | none => s
  | some r => s.attribute t r

/-- A new round begins on all trees (R9, R12): the round number rises by 1, the round-level counts are attributed, frames
begin, and a packet that waited for room is taken. -/
def State.beginRound (s : State) : State :=
  let s1 : State :=
    { s with
      round := s.round + 1
      cutTaken := false
      trees :=
        { q0 := s.trees.q0.roll s.round, q1 := s.trees.q1.roll s.round, q2 := s.trees.q2.roll s.round,
          q3 := s.trees.q3.roll s.round } }
  let s2 := allFour.foldl State.attributeRound s1
  (allFour.foldl State.beginFrame s2).takeHeldPacket

/-! ## The traffic interface (R71, R80) -/

/-- A packet offered by the traffic interface (R71). While a packet waits, ready is withheld and no other packet is taken. -/
def State.offerPacket (s : State) (t : TreeId) (tag : Nat) (payload : List Byte) : State :=
  match s.heldPacket with
  | some _ => s
  | none =>
    let x := s.tree t
    if payload.length = 0 ∨ maxPacket < payload.length then s
    else if x.phase = .down ∨ x.phase = .faulted then s
    else if tagOk tag = false then s
    else if downBytes x.framer.buffer + payload.length ≤ bufferBytes then
      s.modFramer t fun f => { f with buffer := f.buffer ++ [{ tag := tag, payload := payload }] }
    else { s with heldPacket := some { tree := t, packet := { tag := tag, payload := payload } } }

/-- The transmit lane takes the oldest packet of the upstream delivery buffer (R80). -/
def State.deliverOldest (s : State) : State :=
  match s.upBuffer with
  | [] => s
  | p :: rest => { s with upBuffer := rest, delivered := s.delivered ++ [p] }

end Sys2Proof.Machine
end

