-- ==== Sys2Proof/Machine/Planner.lean ====
section
/-! DEFINITION. The planner (chapter 6): candidates, stages A to E, placement, the updates of a build, and settling plans. -/

namespace Sys2Proof.Machine

/-- A candidate of a build (R95) with what the stages give it: `prior` is the payload of stages A, B and C, `extra` that of
stages D and E; `peak` is the capped peak of R94. -/
structure Cand where
  tag : Nat
  occupied : Round
  greeting : Bool
  c : Nat
  peak : Nat
  w : Nat
  need : Nat
  credit : Nat
  lastGranted : Option Round
  prior : Nat
  polled : Bool
  extra : Nat
deriving DecidableEq, Repr

/-- The settings and values one build uses. -/
structure BuildSetting where
  overhead : Nat
  minBurst : Nat
  poll : Nat
  target : Round
deriving DecidableEq, Repr

/-- An entry as a candidate (R95): a TIMED entry of stage A, an ACTIVE entry of stages B to E; none for every other entry,
for a hushed one and for one that owes a WAKE. -/
def candidateOf (tag : Nat) (e : Entry) : Option Cand :=
  if e.hushed ∨ e.owed.wake then none
  else
    match e.body with
    | .timed _ =>
      if e.owed.assign then none
      else
        some { tag := tag, occupied := e.occupied, greeting := true, c := 0, peak := 0, w := 0, need := 0, credit := 0,
               lastGranted := none, prior := 0, polled := false, extra := 0 }
    | .active f =>
      some { tag := tag, occupied := e.occupied, greeting := false, c := e.contract.c,
             peak := if e.capped then e.contract.c else e.contract.p, w := e.contract.w, need := f.need,
             credit := f.credit, lastGranted := f.lastGranted, prior := 0, polled := false, extra := 0 }
    | _ => none

/-- Stage A (R97): a greeting of one quantum to each stage A candidate, whole or not at all (R96). -/
def stageA (overhead : Nat) : (remaining : Nat) → List Cand → List Cand × Nat
  | remaining, [] => ([], remaining)
  | remaining, x :: rest =>
    if x.greeting ∧ 1 + overhead ≤ remaining then
      let r := stageA overhead (remaining - (1 + overhead)) rest
      ({ x with prior := 1 } :: r.1, r.2)
    else
      let r := stageA overhead remaining rest
      (x :: r.1, r.2)

/-- The payload of a committed grant under the fit rule: whole, cut short, or 0 where it is skipped (R96, R98). -/
def committedPayload (overhead remaining need c : Nat) : Nat :=
  let g := min (max need 1) c
  if g + overhead ≤ remaining then g
  else if 1 ≤ remaining - overhead then remaining - overhead
  else 0

/-- Stage B (R98): the committed grants. -/
def stageB (overhead : Nat) : (remaining : Nat) → List Cand → List Cand × Nat
  | remaining, [] => ([], remaining)
  | remaining, x :: rest =>
    let g := if x.greeting = false ∧ 0 < x.c then committedPayload overhead remaining x.need x.c else 0
    if 0 < g then
      let r := stageB overhead (remaining - (g + overhead)) rest
      ({ x with prior := g } :: r.1, r.2)
    else
      let r := stageB overhead remaining rest
      (x :: r.1, r.2)

/-- A poll is due (R99): no grant in the last P plans. -/
def pollDue (b : BuildSetting) (lastGranted : Option Round) : Bool :=
  match lastGranted with
  | none => true
  | some r => b.poll < roundsForward r b.target

/-- Stage C (R99): polls of candidates with c = 0, whole or not at all (R96). -/
def stageC (b : BuildSetting) : (remaining : Nat) → List Cand → List Cand × Nat
  | remaining, [] => ([], remaining)
  | remaining, x :: rest =>
    if x.greeting = false ∧ x.c = 0 ∧ pollDue b x.lastGranted ∧ 1 + b.overhead ≤ remaining then
      let r := stageC b (remaining - (1 + b.overhead)) rest
      ({ x with prior := 1, polled := true } :: r.1, r.2)
    else
      let r := stageC b remaining rest
      (x :: r.1, r.2)

/-- The need still unserved after stages A to C (R100: r). -/
def Cand.unserved (x : Cand) : Nat := x.need - x.prior

/-- The room still below the capped peak after stages A to C (R100: q). -/
def Cand.belowPeak (x : Cand) : Nat := x.peak - x.prior

/-- A member of the eligible set G (R100). -/
def Cand.eligible (x : Cand) : Bool := !x.greeting && 0 < x.unserved && 0 < x.belowPeak

/-- The credit of a candidate with nothing left to send is set to 0 (R100). -/
def Cand.settleCredit (x : Cand) : Cand := if x.unserved = 0 then { x with credit := 0 } else x

/-- The credit of a member after its share of E, within its limit (R101). -/
def Cand.share (overhead excess weights : Nat) (x : Cand) : Cand :=
  { x with credit := min (256 * (x.belowPeak + overhead)) (x.credit + excess * 256 * x.w / weights) }

/-- The two drops to 0 of stages D and E: below one quantum, and a new burst below m (R102). -/
def dropSmall (minBurst : Nat) (newBurst : Bool) (x : Nat) : Nat :=
  if x < 1 ∨ (newBurst ∧ x < minBurst) then 0 else x

/-- The walk of stage D, spending credit (R102). -/
def stageD (b : BuildSetting) : (remaining : Nat) → List Cand → List Cand × Nat
  | remaining, [] => ([], remaining)
  | remaining, x :: rest =>
    let o := if x.prior = 0 then b.overhead else 0
    let g := dropSmall b.minBurst (x.prior = 0)
      (min (min (x.credit / 256 - o) x.unserved) (min x.belowPeak (remaining - o)))
    if 0 < g then
      let r := stageD b (remaining - (g + o)) rest
      ({ x with extra := g, credit := x.credit - 256 * (g + o) } :: r.1, r.2)
    else
      let r := stageD b remaining rest
      (x :: r.1, r.2)

/-- The sweep of stage E, which charges no credit (R103). -/
def stageE (b : BuildSetting) : (remaining : Nat) → List Cand → List Cand × Nat
  | remaining, [] => ([], remaining)
  | remaining, x :: rest =>
    let o := if x.prior + x.extra = 0 then b.overhead else 0
    let g := dropSmall b.minBurst (x.prior + x.extra = 0)
      (min (x.unserved - x.extra) (min (x.belowPeak - x.extra) (remaining - o)))
    if 0 < g then
      let r := stageE b (remaining - (g + o)) rest
      ({ x with extra := x.extra + g } :: r.1, r.2)
    else
      let r := stageE b remaining rest
      (x :: r.1, r.2)

/-- G in the order of the walk: from the lowest tag at or above the lead pointer, wrapping (R102). -/
def walkOrder (lead : Nat) (members : List Cand) : List Cand :=
  (members.filter fun x => lead ≤ x.tag) ++ members.filter fun x => x.tag < lead

/-- The lead pointer after a walk: the tag after the first member, 129 wrapping to 1 (R102). -/
def leadAfter (lead : Nat) : List Cand → Nat
  | [] => lead
  | x :: _ => if x.tag = 128 then 1 else x.tag + 1

/-- The candidates with the walked members put back in their places. -/
def putBack (walked cands : List Cand) : List Cand :=
  cands.map fun x => (walked.find? fun y => y.tag = x.tag).getD x

/-- Stages D and E (R100 to R103): the candidates after them, and the lead pointer. Where the excess is 0 or nobody is
eligible, no walk is made. -/
def shareExcess (b : BuildSetting) (lead excess : Nat) (cands : List Cand) : List Cand × Nat :=
  let settled := cands.map Cand.settleCredit
  let members := settled.filter Cand.eligible
  if excess = 0 ∨ members = [] then (settled, lead)
  else
    let weights := (members.map Cand.w).sum
    let order := walkOrder lead (members.map (Cand.share b.overhead excess weights))
    let d := stageD b excess order
    let e := stageE b d.2 d.1
    (putBack e.1 settled, leadAfter lead order)

/-- Stages A to E on the candidates in ascending tag (R96 to R103). -/
def runStages (b : BuildSetting) (lead capacity : Nat) (cands : List Cand) : List Cand × Nat :=
  let a := stageA b.overhead capacity cands
  let bb := stageB b.overhead a.2 a.1
  let c := stageC b bb.2 bb.1
  shareExcess b lead c.2 c.1

/-- The payload a candidate was granted in the build. -/
def Cand.payload (x : Cand) : Nat := x.prior + x.extra

/-- The kind of a grant by where its payload came from (R105). -/
def Cand.kind (x : Cand) : GrantKind :=
  if x.greeting then .greeting else if x.polled ∧ x.extra = 0 then .poll else .data

/-- Places the grants contiguously in ascending tag from a quantum on (R105). -/
def placeGrants (overhead : Nat) : (start : Nat) → List Cand → List Grant
  | _, [] => []
  | start, x :: rest =>
    if x.payload = 0 then placeGrants overhead start rest
    else
      { tag := x.tag, occupied := x.occupied, start := start, payload := x.payload, length := x.payload + overhead,
        kind := x.kind } :: placeGrants overhead (start + (x.payload + overhead)) rest

/-- The entry marks of a plan record (R106). -/
def entryMark (e : Entry) : Option EntryMark :=
  match e.body with
  | .active f => some (if f.hushed then .hushed else .inService)
  | .fenced _ => some .fenced
  | _ => none

/-- The entry marks of a tree's slots; "none" is not listed (R106). -/
def entryMarks (entries : List (Nat × Entry)) : Store EntryMark :=
  entries.filterMap fun x => (entryMark x.2).map fun m => (x.1, m)

/-- What a build makes of the entry of a stage B to E candidate: need, credit, last granted round (R104). -/
def Cand.update (x : Cand) (target : Round) (e : Entry) : Entry :=
  match e.body with
  | .active f =>
    { e with
      body := .active
        { f with
          need := f.need - x.payload
          credit := x.credit
          lastGranted := if 0 < x.payload then some target else f.lastGranted } }
  | _ => e

/-- The window a plan holds, placed after the dark window with the W_call in force (R10, R46). -/
def planWindow (chosen : Option WindowAnswer) (opening width : Nat) : Option PlanWindow :=
  match chosen with
  | some (.window kind) => some { kind := kind, opening := opening, width := width }
  | _ => none

/-- Offering a window (R46): its window record; for a PROBE, PROBE owed on the probed entry and the enrolment place of the
next frame booked. -/
def State.offerWindow (s : State) (t : TreeId) (target : Round) (w : PlanWindow) : State :=
  match w.kind with
  | .call =>
    s.modEngine t fun g =>
      { g with windows := g.windows ++ [{ round := target, kind := .call, opening := w.opening, width := w.width }] }
  | .probe tag =>
    match s.entry t tag with
    | none => s
    | some e =>
      (s.modEngine t fun g =>
        { g with
          windows := g.windows ++
            [{ round := target, kind := .probe tag e.serial e.occupied, opening := w.opening, width := w.width }]
          bookedProbe := some (s.round + 1, tag) }).modEntry t tag fun e => e.owe .probe

/-- The build of a RUNNING tree at the cut of round n, for round n + 2 (R92 to R106), from what the enrolment engine and the
light supervisor have answered. -/
def State.buildFull (s : State) (t : TreeId) : State :=
  let x := s.tree t
  let target := s.round + 2
  let dark := if x.light.darkAnswer = some true then some x.settings.wDark else none
  let window := planWindow x.engine.chosen (dark.getD 0) x.settings.wCall
  let windows := dark.getD 0 + (match window with | some w => w.width | none => 0)
  let b : BuildSetting :=
    { overhead := x.settings.overhead, minBurst := x.settings.minBurst, poll := x.settings.poll, target := target }
  let entries := s.treeEntries t
  let r := runStages b x.lead (roundQuanta - windows) (entries.filterMap fun y => candidateOf y.1 y.2)
  let record : PlanRecord :=
    { round := target, settling := false, settlingNo := 0, dark := dark, window := window,
      grants := placeGrants b.overhead windows r.1, marks := entryMarks entries }
  let s1 := s.modTree t fun x => { x with plans := x.plans ++ [record], lead := r.2 }
  let s2 := s1.modTreeEntries t fun tag e =>
    match r.1.find? fun y => y.tag = tag && !y.greeting with
    | some y => y.update target e
    | none => e
  match window with
  | none => s2
  | some w => s2.offerWindow t target w

/-- The build of a SETTLING tree (R3): one dark window and nothing else; the settling count rises to at most 16. -/
def State.buildSettling (s : State) (t : TreeId) : State :=
  s.modTree t fun x =>
    { x with
      settlingCount := min 16 (x.settlingCount + 1)
      plans := x.plans ++
        [{ round := s.round + 2, settling := true, settlingNo := if x.settlingCount < 16 then x.settlingCount + 1 else 0,
           dark := some x.settings.wDark, window := none, grants := [], marks := entryMarks (s.treeEntries t) }] }

/-- Step 2 to 7 of a tree's operation at the cut (R92). -/
def State.buildPlan (s : State) (t : TreeId) : State :=
  match (s.tree t).phase with
  | .down => s
  | .faulted => s
  | .settling => s.buildSettling t
  | .running =>
    let s1 := ((s.scheduleAct t).cadenceAct t).buildFull t
    s1.modTree t fun x =>
      { x with engine := { x.engine with chosen := none }, light := { x.light with darkAnswer := none } }

end Sys2Proof.Machine
end

