-- ==== Sys2Proof/Machine/Changes.lean ====
section
/-! DEFINITION. Staged changes (chapter 7): entering the queue, holding, booking checks, and the pass of the cut. -/

namespace Sys2Proof.Machine

/-! ## Changes (R111) -/

/-- The urgency of a change: FENCE and RELEASE are URGENT (R111). -/
def Change.urgent : Change → Bool
  | .fence _ _ => true
  | .release _ _ => true
  | _ => false

/-- The key tree of the APPLIED notice: none for SWITCH BAND and for CLOSE of ALL (R116). -/
def Change.keyTree : Change → Option TreeId
  | .contract t _ _ => some t
  | .treeSetting t _ _ => some t
  | .withdraw t _ => some t
  | .fence t _ => some t
  | .release t _ => some t
  | .uncap t _ => some t
  | .switchBand _ => none
  | .closeInterval t => t

/-- A change that names a slot. -/
def Change.names (c : Change) (t : TreeId) (tag : Nat) : Bool :=
  match c with
  | .contract t' tag' _ => t' = t && tag' = tag
  | .withdraw t' tag' => t' = t && tag' = tag
  | .fence t' tag' => t' = t && tag' = tag
  | .release t' tag' => t' = t && tag' = tag
  | .uncap t' tag' => t' = t && tag' = tag
  | _ => false

/-- The entries a port has in the queue (R112). -/
def State.queuedOf (s : State) (p : Port) : Nat := s.queue.countP fun q => q.origin = p

/-- A change request of a port may enter the queue: the port is not stalled and has fewer entries than its allocation (R112,
R117). -/
def State.mayEnter (s : State) (p : Port) : Bool :=
  !(s.port p).stalled && s.queuedOf p < (s.port p).allocation

/-- An entry enters the queue behind those held, and the bookings that follow from it take effect (R112, R13, R20). -/
def State.enterQueue (s : State) (p : Port) (c : Change) (taken : Round) : State :=
  let s1 := { s with queue := s.queue ++ [{ origin := p, change := c, roundTaken := taken, voided := false }] }
  match c with
  | .contract t tag _ => s1.rebook t tag
  | .treeSetting t .wCall v => s1.modTree t fun x => { x with bookedCall := v }
  | .treeSetting t .wDark v => s1.modTree t fun x => { x with bookedDark := v }
  | _ => s1

/-- A change request that has passed its checks enters the queue and is answered STAGED, or is held in the in-progress slot
(R112, R117). -/
def State.stageChange (s : State) (p : Port) (seq : Byte) (c : Change) : State :=
  if s.mayEnter p then (s.enterQueue p c s.round).reply p seq .staged .nothing
  else
    { s with tickets := s.tickets + 1 }.modPort p fun x =>
      { x with inProgress := some { seq := seq, change := c, roundTaken := s.round, ticket := s.tickets } }

/-! ## The booking checks (R13, R107, R108, R109) -/

/-- The booking sum with an entry's commitment raised as the queue would raise it by a rate (R20, R108). -/
def State.bookingIfContract (s : State) (t : TreeId) (tag : Nat) (e : Entry) (c : Nat) : Nat :=
  let overhead := (s.tree t).settings.overhead
  s.bookingSum t - bookingTerm e.booked overhead +
    bookingTerm (bookedFor e.contract.c (queuedRates s.queue t tag e.occupied ++ [c])) overhead

/-- A change passes the booking check, with the booked values of this instant (R13, R108, R109). A CONTRACT whose slot is
VACANT, or holds an occupant later than the round taken, is not checked (R109). -/
def State.bookingPasses (s : State) (c : Change) (taken : Round) : Bool :=
  match c with
  | .contract t tag v =>
    match s.entry t tag with
    | none => true
    | some e =>
      laterThan e.occupied taken ||
        s.bookingIfContract t tag e v.c + (s.tree t).bookedCall + (s.tree t).bookedDark ≤ roundQuanta
  | .treeSetting t .overhead v => s.bookingWith t v + (s.tree t).bookedCall + (s.tree t).bookedDark ≤ roundQuanta
  | .treeSetting t .wCall v => s.bookingSum t + v + (s.tree t).bookedDark ≤ roundQuanta
  | .treeSetting t .wDark v => s.bookingSum t + (s.tree t).bookedCall + v ≤ roundQuanta
  | _ => true

/-! ## The pass (R113 to R116) -/

/-- Puts a tree setting in force (R13, R15). -/
def Settings.put (x : Settings) (name : SettingName) (v : Nat) : Settings :=
  match name with
  | .target => { x with target := v }
  | .nearBound => { x with nearBound := v }
  | .overhead => { x with overhead := v }
  | .minBurst => { x with minBurst := v }
  | .wCall => { x with wCall := v }
  | .kCall => { x with kCall := v }
  | .wDark => { x with wDark := v }
  | .kDark => { x with kDark := v }
  | .poll => { x with poll := v }
  | .silence => { x with silence := v }
  | .defaultPeak => { x with defaultPeak := v }

/-- The entry a queued change targets, where it is the occupant the change was taken for and no WITHDRAW of the pass has
voided the change (R22, R115). -/
def State.targetOf (s : State) (q : ChangeEntry) (t : TreeId) (tag : Nat) : Option Entry :=
  if q.voided then none
  else
    match s.entry t tag with
    | none => none
    | some e => if laterThan e.occupied q.roundTaken then none else some e

/-- What handing a change to its block leaves: the part after it, and whether it was carried out or found void. -/
structure Handed where
  state : State
  carriedOut : Bool

/-- A CONTRACT at the cut (R110, R20). -/
def State.applyContract (s : State) (q : ChangeEntry) (t : TreeId) (tag : Nat) (v : Contract) : Handed :=
  match s.targetOf q t tag with
  | none => { state := s.rebook t tag, carriedOut := false }
  | some e =>
    if e.state = .leaving then { state := s.rebook t tag, carriedOut := false }
    else { state := (s.setEntry t tag { e with contract := v }).rebook t tag, carriedOut := true }

/-- Every change still queued for a slot becomes void (R31, R115). -/
def State.voidQueued (s : State) (t : TreeId) (tag : Nat) : State :=
  { s with queue := s.queue.map fun q => if q.change.names t tag then { q with voided := true } else q }

/-- A WITHDRAW at the cut (R31, R115, R168): FINAL record where the meters are open, LEAVING, DROP owed, the later changes of
the slot void; the booked place is released in every case. -/
def State.applyWithdraw (s : State) (q : ChangeEntry) (t : TreeId) (tag : Nat) : Handed :=
  match s.targetOf q t tag with
  | none => { state := s.releasePlace, carriedOut := false }
  | some e =>
    match e.toLeaving with
    | none => { state := s.releasePlace, carriedOut := false }
    | some e' =>
      { state := ((((s.finalRecord t tag e).setEntry t tag e').leaveHunt t tag).voidQueued t tag).rebook t tag
        carriedOut := true }

/-- A FENCE at the cut (R29): FENCED with FENCE owed; a TIMED home's meters open where they are closed. -/
def State.applyFence (s : State) (q : ChangeEntry) (t : TreeId) (tag : Nat) : Handed :=
  match s.targetOf q t tag with
  | none => { state := s, carriedOut := false }
  | some e =>
    match e.applyFence with
    | none => { state := s, carriedOut := false }
    | some e' =>
      let s1 := s.setEntry t tag e'
      let s2 := if e.state = .timed then s1.openMeters t tag else s1
      { state := if e.state = .fenced then s2 else s2.leaveHunt t tag, carriedOut := true }

/-- A RELEASE at the cut (R30): from FENCED without the trial mark, on a RUNNING tree. -/
def State.applyRelease (s : State) (q : ChangeEntry) (t : TreeId) (tag : Nat) : Handed :=
  match s.targetOf q t tag with
  | none => { state := s, carriedOut := false }
  | some e =>
    match if (s.tree t).phase = .running then e.releaseFence false else none with
    | none => { state := s, carriedOut := false }
    | some e' => { state := s.setEntry t tag e', carriedOut := true }

/-- An UNCAP at the cut (R160). -/
def State.applyUncap (s : State) (q : ChangeEntry) (t : TreeId) (tag : Nat) : Handed :=
  match s.targetOf q t tag with
  | none => { state := s, carriedOut := false }
  | some e => { state := s.setEntry t tag { e with capped := false }, carriedOut := true }

/-- Hands a queued change to the block that owns its target (R114). -/
def State.applyChange (s : State) (q : ChangeEntry) : Handed :=
  match q.change with
  | .contract t tag v => s.applyContract q t tag v
  | .treeSetting t name v =>
    { state := s.modTree t fun x => { x with settings := x.settings.put name v }, carriedOut := true }
  | .withdraw t tag => s.applyWithdraw q t tag
  | .fence t tag => s.applyFence q t tag
  | .release t tag => s.applyRelease q t tag
  | .uncap t tag => s.applyUncap q t tag
  | .switchBand b => { state := { s with band := b }, carriedOut := true }
  | .closeInterval t => { state := s.closeTrees t, carriedOut := true }

/-- Takes the front entry of the queue: it is handed over, and APPLIED is raised at its origin port (R113, R116). -/
def State.passStep (s : State) : State :=
  match s.queue with
  | [] => s
  | q :: rest =>
    let r := { s with queue := rest }.applyChange q
    r.state.raiseAt q.origin q.change.keyTree (.applied q.change q.roundTaken r.carriedOut (if r.carriedOut then 0 else 1))

/-- Takes a number of entries from the front of the queue. -/
def passAll : Nat → State → State
  | 0, s => s
  | n + 1, s => passAll n s.passStep

/-- The pass of a cut (R113): URGENT entries in queue order, then ORDINARY entries in queue order. -/
def State.pass (s : State) : State :=
  let ordered := (s.queue.filter fun q => q.change.urgent) ++ s.queue.filter fun q => !q.change.urgent
  passAll ordered.length { s with queue := ordered }

end Sys2Proof.Machine
end

