-- ==== Sys2Proof/Machine/Requests.lean ====
section
/-! DEFINITION. The requests as a port takes them: the role table, the checks in the order of each rule, effects and answers;
and the slots of a port (chapter 11). -/

namespace Sys2Proof.Machine

/-- A request within the role of a port (R174). -/
def permitted (p : Port) : Request → Bool
  | .startTree _ => p = .line
  | .stopTree _ => p = .line
  | .setTree _ _ _ => p = .line
  | .admitHome _ _ _ _ _ => p = .line
  | .strike _ => p = .line
  | .setAdmissionMode _ => p = .line
  | .callsOn _ => p = .line
  | .callsOff _ => p = .line
  | .withdraw _ _ => p = .line
  | .setAllocations _ _ _ => p = .line
  | .stall _ => p = .line
  | .unstall _ => p = .line
  | .setRoute _ _ => p = .line
  | .readTree _ => p = .line
  | .setContract _ _ _ _ _ => p = .accounting
  | .switchBand _ => p = .accounting
  | .closeInterval _ => p = .accounting
  | .takeRecords _ => p = .accounting
  | .setWatch _ _ _ _ _ _ _ => p = .accounting
  | .clearWatch _ => p = .accounting
  | .uncap _ _ => p = .accounting
  | .readMeters _ _ => p = .accounting
  | .setJournalMark _ => p = .accounting
  | .setLightLimit _ _ _ => p = .supervisor
  | .setConfirm _ _ _ _ => p = .supervisor
  | .hunt _ => p = .supervisor
  | .abandon _ => p = .supervisor
  | .fence _ _ => p = .supervisor
  | .release _ _ => p = .supervisor
  | .readLight _ => p = .supervisor
  | .readRoster _ _ _ => true
  | .fetchNotices _ => true
  | .setThreshold _ => true
  | .setHoldLimit _ => true

/-! ## Trees (chapter 1) -/

/-- The effects of a tree start (R2, R41, R123). -/
def State.startTree (s : State) (t : TreeId) : State :=
  (s.modTree t fun x =>
    { x with
      phase := .settling
      settlingCount := 0
      engine := { x.engine with count := 0, deferred := false, windows := [], bookedProbe := none, chosen := none }
      light :=
        { x.light with
          baseline := 0, suspicion := .clear, observations := [], cadence := 0, darkAnswer := none, lastDark := none }
    }).modTreeEntries t fun _ e => if e.state = .fenced then e.owe .fence else e

/-- START TREE (R2). -/
def State.takeStartTree (s : State) (p : Port) (seq : Byte) (tree : Nat) : State :=
  match treeOf tree with
  | none => s.refuse p seq .badArgument
  | some t =>
    match (s.tree t).phase with
    | .settling => s.refuse p seq .wrongState
    | .running => s.refuse p seq .wrongState
    | _ => (s.startTree t).reply p seq .done .nothing

/-- The roster after a stop of a tree (R7): entries that become VACANT go, the rest lose what a stop takes. -/
def stoppedRoster (t : TreeId) (roster : Store Entry) : Store Entry :=
  roster.filterMap fun x =>
    if slotTree x.1 = t.val then (x.2.stopped).map fun e => (x.1, e) else some x

/-- The effects of a tree stop (R6, R7, R41, R91, R123, R159). -/
def State.stopTree (s : State) (t : TreeId) : State :=
  let roster := stoppedRoster t s.roster
  let s1 : State :=
    { s with
      roster := roster
      watches := s.watches.filter fun x =>
        x.2.tree ≠ t || (Store.read (slotOf t x.2.tag) roster).isSome }
  (s1.modTree t fun x =>
    { x with
      phase := .down
      lead := 1
      plans := x.plans.filter fun r => r.round = s.round
      engine := { x.engine with count := 0, deferred := false, windows := [], bookedProbe := none, chosen := none }
      light := { x.light with suspicion := .clear, observations := [], cadence := 0, darkAnswer := none }
      framer := { buffer := [], frame := none }
      checker := { x.checker with muted := true, marks := [], carried := none, carriedIdle := none } }).takeHeldPacket

/-- How a tree's entries of a stop are counted: those for which a test of the entry before and after holds (R8). -/
def countStop (entries : List (Nat × Entry)) (f : Entry → Option Entry → Bool) : Nat :=
  entries.countP fun x => f x.2 x.2.stopped

/-- STOP TREE (R6, R7, R8). -/
def State.takeStopTree (s : State) (p : Port) (seq : Byte) (tree : Nat) : State :=
  match treeOf tree with
  | none => s.refuse p seq .badArgument
  | some t =>
    if (s.tree t).phase = .down then s.refuse p seq .wrongState
    else
      let entries := s.treeEntries t
      (s.stopTree t).reply p seq .done
        (.stopped
          (countStop entries fun _ after => after.isNone)
          (countStop entries fun e after => e.state ≠ .silent && (after.map Entry.state) = some .silent)
          (countStop entries fun _ after => (after.map Entry.state) = some .fenced)
          (s.hunting t)
          (min 65535 (s.tree t).framer.buffer.length))

/-- The setting a SET TREE code names (R183). -/
def settingOf : Nat → Option SettingName
  | 1 => some .target
  | 2 => some .nearBound
  | 3 => some .overhead
  | 4 => some .minBurst
  | 5 => some .wCall
  | 6 => some .kCall
  | 7 => some .wDark
  | 8 => some .kDark
  | 9 => some .poll
  | 10 => some .silence
  | 11 => some .defaultPeak
  | _ => none

/-- A value within the range of a setting (section 1.5, R13). -/
def settingInRange (x : Settings) (name : SettingName) (v : Nat) : Bool :=
  match name with
  | .target => v ≤ 131071 && x.nearBound ≤ v
  | .nearBound => v ≤ x.target
  | .overhead => 2 ≤ v && v ≤ 8
  | .minBurst => 1 ≤ v && v ≤ 64
  | .wCall => 16 ≤ v && v ≤ 1600
  | .kCall => 1 ≤ v && v ≤ 1024
  | .wDark => 4 ≤ v && v ≤ 64
  | .kDark => 1 ≤ v && v ≤ 256
  | .poll => 1 ≤ v && v ≤ 64
  | .silence => 1 ≤ v && v ≤ 16
  | .defaultPeak => 1 ≤ v && v ≤ 1875

/-- The settings SET TREE carries out at once, on a DOWN tree alone (R13). -/
def SettingName.atOnce : SettingName → Bool
  | .target => true
  | .nearBound => true
  | .overhead => true
  | _ => false

/-- SET TREE of T, N or H carried out at once (R13, R14). -/
def State.setAtOnce (s : State) (t : TreeId) (name : SettingName) (v : Nat) : State :=
  let s1 := s.modTree t fun x => { x with settings := x.settings.put name v }
  if name = .target then s1.modTreeEntries t fun _ e => e.clampDelay v else s1

/-- SET TREE (R13, R14). -/
def State.takeSetTree (s : State) (p : Port) (seq : Byte) (tree setting value : Nat) : State :=
  match treeOf tree, settingOf setting with
  | some t, some name =>
    if settingInRange (s.tree t).settings name value = false then s.refuse p seq .badArgument
    else if name.atOnce ∧ (s.tree t).phase ≠ .down then s.refuse p seq .wrongState
    else if s.bookingPasses (.treeSetting t name value) s.round = false then s.refuse p seq .overbook
    else if name.atOnce then (s.setAtOnce t name value).reply p seq .done .nothing
    else s.stageChange p seq (.treeSetting t name value)
  | _, _ => s.refuse p seq .badArgument

/-- The numbers of a tree's entries in each roster state, VACANT first (R16; log entry 18). -/
def State.stateCounts (s : State) (t : TreeId) : List Nat :=
  let entries := s.treeEntries t
  (128 - entries.length) ::
    [EntryState.heard, .timed, .active, .silent, .fenced, .leaving].map fun st => entries.countP fun x => x.2.state = st

/-- READ TREE (R16). -/
def State.takeReadTree (s : State) (p : Port) (seq : Byte) (tree : Nat) : State :=
  match treeOf tree with
  | none => s.refuse p seq .badArgument
  | some t =>
    let x := s.tree t
    s.reply p seq .done
      (.treeReading
        { round := s.round, phase := x.phase, settlingCount := x.settlingCount, settings := x.settings,
          limitValue := x.light.limitValue, limitScale := x.light.limitScale, m := x.light.m, v := x.light.v,
          mOver := x.light.mOver, bookedCall := x.bookedCall, bookedDark := x.bookedDark, bookingSum := s.bookingSum t,
          calls := x.engine.calls, collisions := x.engine.collisions, counts := s.stateCounts t, lead := x.lead,
          fill := downBytes x.framer.buffer })

/-! ## Admission (chapter 2) -/

/-- The tree argument of ADMIT: 0–3, or ANY 255 (R36, R183). -/
def admitTree (n : Nat) : Option (Option TreeId) :=
  if n = 255 then some none else (treeOf n).map some

/-- ADMIT (R36). -/
def State.takeAdmit (s : State) (p : Port) (seq : Byte) (serial : Serial) (tree c pk w : Nat) : State :=
  match admitTree tree with
  | none => s.refuse p seq .badArgument
  | some t =>
    if contractOk c pk w = false then s.refuse p seq .badArgument
    else
      let record : Admission := { serial := serial, tree := t, contract := { c := c, p := pk, w := w } }
      let replaced := (Store.read serial.toNat s.admissions).isSome
      if replaced = false ∧ admissionPlaces ≤ s.admissions.length then s.refuse p seq .listFull
      else
        let s1 := { s with admissions := Store.write serial.toNat record s.admissions }
        s1.reply p seq .done (.admitted s1.admissions.length replaced)

/-- STRIKE (R37). -/
def State.takeStrike (s : State) (p : Port) (seq : Byte) (serial : Serial) : State :=
  match Store.read serial.toNat s.admissions with
  | none => s.refuse p seq .noSuchHome
  | some _ =>
    let s1 := { s with admissions := Store.erase serial.toNat s.admissions }
    s1.reply p seq .done (.struck s1.admissions.length)

/-- SET ADMISSION MODE (R38, R183): LISTED 0, OPEN 1. -/
def State.takeSetAdmissionMode (s : State) (p : Port) (seq : Byte) (mode : Nat) : State :=
  match mode with
  | 0 => { s with openMode := false }.reply p seq .done .nothing
  | 1 => { s with openMode := true }.reply p seq .done .nothing
  | _ => s.refuse p seq .badArgument

/-- CALLS ON and CALLS OFF (R42). -/
def State.takeCalls (s : State) (p : Port) (seq : Byte) (tree : Nat) (on : Bool) : State :=
  match treeOf tree with
  | none => s.refuse p seq .badArgument
  | some t => (s.modEngine t fun g => { g with calls := on }).reply p seq .done .nothing

/-- READ ROSTER (R40). -/
def State.takeReadRoster (s : State) (p : Port) (seq : Byte) (tree firstTag count : Nat) : State :=
  match treeOf tree with
  | none => s.refuse p seq .badArgument
  | some t =>
    if tagOk firstTag = false ∨ count < 1 ∨ 8 < count ∨ 128 < firstTag + count - 1 then s.refuse p seq .badArgument
    else s.reply p seq .done (.roster ((List.range' firstTag count).map fun tag => (tag, s.entry t tag)))

/-! ## Changes to one home (chapters 6 to 10) -/

/-- A change to one home in front of its slot (R108, R144, R145, R160, R167): BAD_ARGUMENT, NO_SUCH_HOME, WRONG_STATE in this
order, then what is left of its rule. -/
def State.withHome (s : State) (p : Port) (seq : Byte) (tree tag : Nat) (argumentsOk : Bool) (wrong : Entry → Bool)
    (go : TreeId → Entry → State) : State :=
  match treeOf tree with
  | none => s.refuse p seq .badArgument
  | some t =>
    if tagOk tag = false ∨ argumentsOk = false then s.refuse p seq .badArgument
    else
      match s.entry t tag with
      | none => s.refuse p seq .noSuchHome
      | some e => if wrong e then s.refuse p seq .wrongState else go t e

/-- WITHDRAW (R167): a final place is booked when the request is taken. -/
def State.takeWithdraw (s : State) (p : Port) (seq : Byte) (tree tag : Nat) : State :=
  s.withHome p seq tree tag true (fun e => e.state = .leaving) fun t _ =>
    if journalPlaces ≤ s.journal.records.length + s.journal.booked then s.refuse p seq .journalShort
    else
      { s with journal := { s.journal with booked := s.journal.booked + 1 } }.stageChange p seq (.withdraw t tag)

/-- SET CONTRACT (R108). -/
def State.takeSetContract (s : State) (p : Port) (seq : Byte) (tree tag c pk w : Nat) : State :=
  s.withHome p seq tree tag (contractOk c pk w) (fun e => e.state = .leaving) fun t e =>
    if s.bookingIfContract t tag e c + (s.tree t).bookedCall + (s.tree t).bookedDark ≤ roundQuanta then
      s.stageChange p seq (.contract t tag { c := c, p := pk, w := w })
    else s.refuse p seq .overbook

/-- UNCAP (R160). -/
def State.takeUncap (s : State) (p : Port) (seq : Byte) (tree tag : Nat) : State :=
  s.withHome p seq tree tag true (fun e => e.state = .leaving) fun t _ => s.stageChange p seq (.uncap t tag)

/-- The states in which FENCE and RELEASE are refused: HEARD, LEAVING, FENCED with the trial mark (R144, R145). -/
def Entry.fenceRefused (e : Entry) : Bool := e.state = .heard || e.state = .leaving || e.trial

/-- FENCE (R144). -/
def State.takeFence (s : State) (p : Port) (seq : Byte) (tree tag : Nat) : State :=
  s.withHome p seq tree tag true Entry.fenceRefused fun t _ => s.stageChange p seq (.fence t tag)

/-- RELEASE (R145). -/
def State.takeRelease (s : State) (p : Port) (seq : Byte) (tree tag : Nat) : State :=
  s.withHome p seq tree tag true Entry.fenceRefused fun t _ => s.stageChange p seq (.release t tag)

/-- SWITCH BAND (R153). -/
def State.takeSwitchBand (s : State) (p : Port) (seq : Byte) (band : Nat) : State :=
  match treeOf band with
  | none => s.refuse p seq .badArgument
  | some b => s.stageChange p seq (.switchBand b)

/-- CLOSE (R164): a tree 0–3, or ALL 255. -/
def State.takeClose (s : State) (p : Port) (seq : Byte) (tree : Nat) : State :=
  if tree = 255 then s.stageChange p seq (.closeInterval none)
  else
    match treeOf tree with
    | none => s.refuse p seq .badArgument
    | some t => s.stageChange p seq (.closeInterval (some t))

/-! ## The journal and the watches (chapters 9 and 10) -/

/-- TAKE RECORDS (R169). -/
def State.takeTakeRecords (s : State) (p : Port) (seq : Byte) (count : Nat) : State :=
  if count < 1 ∨ 16 < count then s.refuse p seq .badArgument
  else
    let s1 := { s with journal := { s.journal with records := s.journal.records.drop count } }
    s1.reply p seq .done (.records (s.journal.records.take count) s1.journal.records.length s.journal.booked)

/-- SET JOURNAL MARK (R170). -/
def State.takeSetJournalMark (s : State) (p : Port) (seq : Byte) (mark : Nat) : State :=
  if journalCeiling < mark then s.refuse p seq .badArgument
  else { s with journal := { s.journal with mark := mark } }.reply p seq .done (.heldCount s.journal.records.length)

/-- A watch direction (R183). -/
def directionOf : Nat → Option Direction
  | 1 => some .up
  | 2 => some .down
  | 3 => some .both
  | _ => none

/-- A watch band: 0–3, or ALL 255 (R183). -/
def watchBandOf (n : Nat) : Option (Option BandId) := if n = 255 then some none else (treeOf n).map some

/-- A watch action: NOTIFY 1, THROTTLE 2 (R183). -/
def throttleOf : Nat → Option Bool
  | 1 => some false
  | 2 => some true
  | _ => none

/-- The fields of a SET WATCH, ARMED; none where any is out of range (R157). -/
def watchOf (watch tree tag direction band threshold action : Nat) : Option Watch :=
  match treeOf tree, directionOf direction, watchBandOf band, throttleOf action with
  | some t, some d, some b, some th =>
    if watch < 8 ∧ tagOk tag ∧ 1 ≤ threshold ∧ threshold ≤ maxBytes then
      some { tree := t, tag := tag, direction := d, band := b, threshold := threshold, throttle := th, fired := false }
    else none
  | _, _, _, _ => none

/-- SET WATCH (R157): the watch is ARMED with its new fields and tested at once. -/
def State.takeSetWatch (s : State) (p : Port) (seq : Byte) (watch tree tag direction band threshold action : Nat) : State :=
  match watchOf watch tree tag direction band threshold action with
  | none => s.refuse p seq .badArgument
  | some w =>
    match s.entry w.tree w.tag with
    | none => s.refuse p seq .noSuchHome
    | some _ =>
      let s1 := { s with watches := Store.write watch w s.watches }.testWatch watch
      let fired := match Store.read watch s1.watches with
        | some w' => w'.fired
        | none => false
      s1.reply p seq .done (.watchSet (w.selectedSum (s.meterOf w.tree w.tag)) fired)

/-- CLEAR WATCH (R159). -/
def State.takeClearWatch (s : State) (p : Port) (seq : Byte) (watch : Nat) : State :=
  if watch < 8 then { s with watches := Store.erase watch s.watches }.reply p seq .done .nothing
  else s.refuse p seq .badArgument

/-- READ METERS (R156); the watches of the slot in ascending number (DESIGN CHOICE, log entry 36). -/
def State.takeReadMeters (s : State) (p : Port) (seq : Byte) (tree tag : Nat) : State :=
  match treeOf tree with
  | none => s.refuse p seq .badArgument
  | some t =>
    if tagOk tag = false then s.refuse p seq .badArgument
    else
      s.reply p seq .done
        (.meterReading
          { round := s.round, band := s.band, state := s.slotState t tag,
            occupant := (s.entry t tag).map fun e => (e.serial, e.occupied),
            meters := s.meterOf t tag,
            capped := match s.entry t tag with
              | some e => e.capped
              | none => false
            watches := s.watches.filter fun x => x.2.tree = t && x.2.tag = tag })

/-! ## Light supervision (chapter 8) -/

/-- SET LIGHT LIMIT (R124). -/
def State.takeSetLightLimit (s : State) (p : Port) (seq : Byte) (tree value scale : Nat) : State :=
  match treeOf tree with
  | none => s.refuse p seq .badArgument
  | some t =>
    if 255 < value ∨ ¬ (scale = 1 ∨ scale = 4 ∨ scale = 16 ∨ scale = 64) then s.refuse p seq .badArgument
    else
      let s1 := s.modLight t fun l => { l with limitValue := value, limitScale := scale }
      s1.reply p seq .done (.effectiveLimit (s1.tree t).light.effectiveLimit)

/-- SET CONFIRM (R125). -/
def State.takeSetConfirm (s : State) (p : Port) (seq : Byte) (tree m v mOver : Nat) : State :=
  match treeOf tree with
  | none => s.refuse p seq .badArgument
  | some t =>
    if m < 1 ∨ 8 < m ∨ v < 1 ∨ 4 < v ∨ mOver < 1 ∨ 8 < mOver then s.refuse p seq .badArgument
    else (s.modLight t fun l => { l with m := m, v := v, mOver := mOver }).reply p seq .done .nothing

/-- The size of the first group of a hunt, 1 for verification (R141). -/
def HuntPhase.groupSize : HuntPhase → Nat
  | .search group => group.length
  | .trial _ => 1
  | .allQuiet _ _ => 1

/-- HUNT (R141). -/
def State.takeHunt (s : State) (p : Port) (seq : Byte) (tree : Nat) : State :=
  match treeOf tree with
  | none => s.refuse p seq .badArgument
  | some t =>
    if (s.tree t).phase ≠ .running ∨ s.hunting t then s.refuse p seq .wrongState
    else
      let s1 := s.beginHunt t
      s1.reply p seq .done
        (match s1.huntOf t with
        | some h => .huntStarted h.suspects.length h.phase.groupSize
        | none => .huntForeign)

/-- ABANDON (R142). -/
def State.takeAbandon (s : State) (p : Port) (seq : Byte) (tree : Nat) : State :=
  match treeOf tree with
  | none => s.refuse p seq .badArgument
  | some t => (s.abandonHunt t).reply p seq .done (.suspicionBefore (s.tree t).light.suspicion.name)

/-- READ LIGHT (R146). -/
def State.takeReadLight (s : State) (p : Port) (seq : Byte) (tree : Nat) : State :=
  match treeOf tree with
  | none => s.refuse p seq .badArgument
  | some t =>
    let l := (s.tree t).light
    s.reply p seq .done
      (.lightReading
        { baseline := l.baseline, limitValue := l.limitValue, limitScale := l.limitScale,
          effectiveLimit := l.effectiveLimit, m := l.m, v := l.v, mOver := l.mOver, suspicion := l.suspicion,
          observations := l.observations, cadence := l.cadence, kDark := (s.tree t).settings.kDark, strays := l.strays,
          lastDark := l.lastDark, lastHunt := l.lastHunt })

/-! ## Ports, allocations and notices (chapters 7 and 11) -/

/-- A new allocation that shrinks its port meets both checks: the port is stalled, and holds no more entries than it (R121). -/
def State.mayAllocate (s : State) (p : Port) (a : Nat) : Bool :=
  !(a < (s.port p).allocation) || ((s.port p).stalled && s.queuedOf p ≤ a)

/-- SET ALLOCATIONS (R121). -/
def State.takeSetAllocations (s : State) (p : Port) (seq : Byte) (aLine aAccounting aSupervisor : Nat) : State :=
  if 32 < aLine ∨ 32 < aAccounting ∨ 32 < aSupervisor ∨ 32 < aLine + aAccounting + aSupervisor then
    s.refuse p seq .badArgument
  else if s.mayAllocate .line aLine ∧ s.mayAllocate .accounting aAccounting ∧ s.mayAllocate .supervisor aSupervisor then
    (((s.modPort .line fun x => { x with allocation := aLine }).modPort .accounting
      fun x => { x with allocation := aAccounting }).modPort .supervisor
      fun x => { x with allocation := aSupervisor }).reply p seq .done (.allocations aLine aAccounting aSupervisor)
  else s.refuse p seq .allocBusy

/-- STALL and UNSTALL (R120). -/
def State.takeStall (s : State) (p : Port) (seq : Byte) (named : Nat) (mark : Bool) : State :=
  match portOf named with
  | none => s.refuse p seq .badArgument
  | some q => (s.modPort q fun x => { x with stalled := mark }).reply p seq .done .nothing

/-- The routable notice kinds by code (section 12.1, R178). -/
def routableOf : Nat → Option NoticeKind
  | 1 => some .homeHeard
  | 2 => some .homeActive
  | 3 => some .enrolFailed
  | 4 => some .stranger
  | 5 => some .serialClash
  | 6 => some .homeSilent
  | 7 => some .reachLimit
  | 8 => some .treeReady
  | 9 => some .treeFault
  | 10 => some .intervalClosed
  | 11 => some .journalHigh
  | 12 => some .watchFired
  | 13 => some .lightSeen
  | 14 => some .lightGone
  | 15 => some .rogueContained
  | 16 => some .rogueUnresolved
  | 17 => some .overrunFence
  | _ => none

/-- SET ROUTE (R178). -/
def State.takeSetRoute (s : State) (p : Port) (seq : Byte) (kind named : Nat) : State :=
  match routableOf kind, portOf named with
  | some k, some q =>
    { s with routes := s.routes.map fun (r : NoticeKind × Port) => if r.1 = k then (r.1, q) else r }.reply p seq .done
      (.routedBefore (routeOf s.routes k))
  | _, _ => s.refuse p seq .badArgument

/-- FETCH NOTICES (R181, R180). -/
def State.takeFetchNotices (s : State) (p : Port) (seq : Byte) (count : Nat) : State :=
  if count < 1 ∨ 8 < count then s.refuse p seq .badArgument
  else
    let before := (s.port p).notices
    (s.modPort p fun x => { x with notices := before.drop count }.judgeLine).reply p seq .done
      (.notices (before.take count) (before.length - count))

/-- A notice threshold by code (R183). -/
def severityOf : Nat → Option Severity
  | 0 => some .info
  | 1 => some .warn
  | 2 => some .alarm
  | _ => none

/-- SET THRESHOLD (R180). -/
def State.takeSetThreshold (s : State) (p : Port) (seq : Byte) (level : Nat) : State :=
  match severityOf level with
  | none => s.refuse p seq .badArgument
  | some v =>
    (s.modPort p fun x => { x with threshold := v }.judgeLine).reply p seq .done
      (.atThreshold ((s.port p).notices.countP fun e => v.rank ≤ e.severity.rank))

/-- A hold limit by code: OFF is 0 (R118, section 12). -/
def holdLimitOf : Nat → Option (Option Nat)
  | 0 => some none
  | 5 => some (some 5)
  | 50 => some (some 50)
  | 500 => some (some 500)
  | 5000 => some (some 5000)
  | _ => none

/-- SET HOLD LIMIT (R118). -/
def State.takeSetHoldLimit (s : State) (p : Port) (seq : Byte) (limit : Nat) : State :=
  match holdLimitOf limit with
  | none => s.refuse p seq .badArgument
  | some l => (s.modPort p fun x => { x with holdLimit := l }).reply p seq .done .nothing

/-! ## Taking a request, and the slots (R172 to R174, R176) -/

/-- A request within the port's role is carried out. -/
def State.carryOut (s : State) (p : Port) (seq : Byte) : Request → State
  | .startTree tree => s.takeStartTree p seq tree
  | .stopTree tree => s.takeStopTree p seq tree
  | .setTree tree setting value => s.takeSetTree p seq tree setting value
  | .admitHome serial tree c pk w => s.takeAdmit p seq serial tree c pk w
  | .strike serial => s.takeStrike p seq serial
  | .setAdmissionMode mode => s.takeSetAdmissionMode p seq mode
  | .callsOn tree => s.takeCalls p seq tree true
  | .callsOff tree => s.takeCalls p seq tree false
  | .withdraw tree tag => s.takeWithdraw p seq tree tag
  | .setAllocations l a v => s.takeSetAllocations p seq l a v
  | .stall named => s.takeStall p seq named true
  | .unstall named => s.takeStall p seq named false
  | .setRoute kind named => s.takeSetRoute p seq kind named
  | .readTree tree => s.takeReadTree p seq tree
  | .setContract tree tag c pk w => s.takeSetContract p seq tree tag c pk w
  | .switchBand band => s.takeSwitchBand p seq band
  | .closeInterval tree => s.takeClose p seq tree
  | .takeRecords count => s.takeTakeRecords p seq count
  | .setWatch watch tree tag direction band threshold action =>
    s.takeSetWatch p seq watch tree tag direction band threshold action
  | .clearWatch watch => s.takeClearWatch p seq watch
  | .uncap tree tag => s.takeUncap p seq tree tag
  | .readMeters tree tag => s.takeReadMeters p seq tree tag
  | .setJournalMark mark => s.takeSetJournalMark p seq mark
  | .setLightLimit tree value scale => s.takeSetLightLimit p seq tree value scale
  | .setConfirm tree m v mOver => s.takeSetConfirm p seq tree m v mOver
  | .hunt tree => s.takeHunt p seq tree
  | .abandon tree => s.takeAbandon p seq tree
  | .fence tree tag => s.takeFence p seq tree tag
  | .release tree tag => s.takeRelease p seq tree tag
  | .readLight tree => s.takeReadLight p seq tree
  | .readRoster tree firstTag count => s.takeReadRoster p seq tree firstTag count
  | .fetchNotices count => s.takeFetchNotices p seq count
  | .setThreshold level => s.takeSetThreshold p seq level
  | .setHoldLimit limit => s.takeSetHoldLimit p seq limit

/-- Whether a change is a WITHDRAW, whose final place is booked (R111). -/
def Change.isWithdraw : Change → Bool
  | .withdraw _ _ => true
  | _ => false

/-- A held request is discarded: a WITHDRAW releases its final place (R117, R122). -/
def State.dropHeld (s : State) (h : Held) : State := if h.change.isWithdraw then s.releasePlace else s

/-- PORT RESET, taken at the instant it arrives (R176, R171, R122). -/
def State.takePortReset (s : State) (p : Port) (seq : Byte) : State :=
  let x := s.port p
  let s1 := match x.inProgress with
    | some h => s.dropHeld h
    | none => s
  (s1.modPort p fun x =>
    { x with inProgress := none, waiting := none, notices := [], threshold := .info, line := false,
             holdLimit := some 500 }).reply p seq .done
    (.discarded ((if x.inProgress.isSome then 1 else 0) + (if x.waiting.isSome then 1 else 0)) x.notices.length)

/-- A port takes a request (R172, R174, R182): its form, its name, the role table, then the checks of its rule. -/
def State.take (s : State) (p : Port) (a : Arrived) : State :=
  match a.ask with
  | .portReset => s.takePortReset p a.seq
  | .malformed _ => s.refuse p a.seq .badArgument
  | .request r => if permitted p r then s.carryOut p a.seq r else s.refuse p a.seq .notPermitted

/-- The request in the waiting slot is taken where the in-progress slot is empty (R172). -/
def State.takeWaiting (s : State) (p : Port) : State :=
  match (s.port p).inProgress, (s.port p).waiting with
  | none, some a => (s.modPort p fun x => { x with waiting := none }).take p a
  | _, _ => s

/-- A request in front of the slots (R172): taken at once, placed in the waiting slot, or answered PORT_BUSY. -/
def State.intoSlots (s : State) (p : Port) (a : Arrived) : State :=
  match (s.port p).inProgress, (s.port p).waiting with
  | none, _ => s.take p a
  | some _, none => s.modPort p fun x => { x with waiting := some a }
  | some _, some _ => s.refuse p a.seq .portBusy

/-- A whole message arrives at a port (R172, R176): a PORT RESET is taken at once; any other is dealt with by the slots. -/
def State.arrive (s : State) (p : Port) (a : Arrived) : State :=
  match a.ask with
  | .portReset => s.takePortReset p a.seq
  | _ => (s.takeWaiting p).intoSlots p a

end Sys2Proof.Machine
end

