-- ==== Sys2Proof/Machine/Cut.lean ====
section
/-! DEFINITION. The cut (R11, R92): the pass, the offers to held requests, their hold limits, and the builds. -/

namespace Sys2Proof.Machine

/-- Empties a port's in-progress slot. -/
def State.freeSlot (s : State) (p : Port) : State := s.modPort p fun x => { x with inProgress := none }

/-- A held request is offered entry (R117, R109): it enters and is answered STAGED, or fails the booking check and is answered
OVERBOOK; then the waiting request is taken. A port that is stalled or has no room keeps its request held. -/
def State.offerHeld (s : State) (p : Port) : State :=
  match (s.port p).inProgress with
  | none => s
  | some h =>
    if s.mayEnter p then
      let s1 := s.freeSlot p
      let s2 :=
        if s1.bookingPasses h.change h.roundTaken then
          (s1.enterQueue p h.change h.roundTaken).reply p h.seq .staged .nothing
        else s1.refuse p h.seq .overbook
      s2.takeWaiting p
    else s

/-- A held request's hold limit has expired at the cut of the round in progress (R118). -/
def State.heldExpired (s : State) (p : Port) : Bool :=
  match (s.port p).inProgress, (s.port p).holdLimit with
  | some h, some limit => limit ≤ roundsForward h.roundTaken s.round
  | _, _ => false

/-- A held request whose hold limit has expired is answered HELD_TOO_LONG and discarded; then the waiting request is taken
(R118, R117). -/
def State.expireHeld (s : State) (p : Port) : State :=
  match (s.port p).inProgress with
  | none => s
  | some h =>
    if s.heldExpired p then (((s.freeSlot p).dropHeld h).refuse p h.seq .heldTooLong).takeWaiting p
    else s

/-- Puts a port into a list of ports in the order of their tickets, behind those with the same ticket. -/
def insertTicket (ticket : Nat) (p : Port) : List (Nat × Port) → List (Nat × Port)
  | [] => [(ticket, p)]
  | x :: rest => if x.1 ≤ ticket then x :: insertTicket ticket p rest else (ticket, p) :: x :: rest

/-- The ports that hold a request, in the order the requests were taken (R117). -/
def State.heldOrder (s : State) : List Port :=
  (allPorts.foldl
    (fun acc p => match (s.port p).inProgress with
      | some h => insertTicket h.ticket p acc
      | none => acc) []).map Prod.snd

/-! ## The cut (R11, R92, R113, R117, R118) -/

/-- The part after the pass of the cut (R113). -/
def State.passed (s : State) : State := { s with cutTaken := true }.pass

/-- The part after the offers that follow the pass (R117). Each held request is tested as it is offered: what Line's waiting
request, taken when Line's held one has entered, did to a stall mark or an allocation counts for the offers after it, at this
cut already (DESIGN CHOICE, log entry 41; R120 says the next cut). -/
def State.offered (s : State) : State := s.passed.heldOrder.foldl State.offerHeld s.passed

/-- The part that the builds of the cut start from: pass, offers and hold limits are done (R118). -/
def State.openCut (s : State) : State := allPorts.foldl State.expireHeld s.offered

/-- The cut of the round in progress, once a round. Every plan is built on the state that the whole pass has left (R113). -/
def State.takeCut (s : State) : State := if s.cutTaken then s else allFour.foldl State.buildPlan s.openCut

/-- A command that names one event of the cut: the cut is taken where that event is among what happens at it. The event has no
other instant (log entry 3). -/
def State.cutWhere (s : State) (happens : Bool) : State := if happens then s.takeCut else s

/-- At the cut a port's held request leaves its slot by the offer (R117). -/
def State.heldEnters (s : State) (p : Port) : Bool :=
  (s.passed.port p).inProgress.isSome && (s.offered.port p).inProgress ≠ (s.passed.port p).inProgress

/-- At the cut a port's held request leaves its slot by its hold limit (R118). -/
def State.heldTooLong (s : State) (p : Port) : Bool :=
  (s.offered.port p).inProgress.isSome && (s.openCut.port p).inProgress ≠ (s.offered.port p).inProgress

end Sys2Proof.Machine
end

