-- ==== Sys2Proof/Machine/ExecPorts.lean ====
section
/-! DEFINITION. The meanings of reset and of the port rows. -/

namespace Sys2Proof.Machine

/-- POWER_ON_RESET (R171, R17, R41, R91, R123, R147, R161): every block returns to its reset values; the commands that wait in
the queue are outside the part and stay. -/
def execPowerOnReset (s : State) : Host.Outcome State Fault Refusal :=
  .next { State.reset with pending := s.pending }

/-- REQUEST_ARRIVAL (R172, R182): a whole message arrives at a port. Bytes that are no whole message are no request. -/
def execRequestArrival (port : Port) (message : List Byte) (s : State) : Host.Outcome State Fault Refusal :=
  match decodeMessage message with
  | none => .next s
  | some a => .next (s.arrive port a)

/-- WAITING_REQUEST_TAKEN (R172): the waiting request is taken where the in-progress slot is empty. -/
def execWaitingRequestTaken (port : Port) (s : State) : Host.Outcome State Fault Refusal :=
  .next (s.takeWaiting port)

/-- PORT_RESET (R176). -/
def execPortReset (port : Port) (seq : Byte) (s : State) : Host.Outcome State Fault Refusal :=
  .next (s.arrive port { seq := seq, ask := .portReset })

end Sys2Proof.Machine
end

