-- ==== Sys2Proof/Machine/ExecRequests.lean ====
section
/-! DEFINITION. The meanings of the request rows: the request arrives at the named port with its sequence byte, goes through the
slots (R172), and is checked and carried out as its rule gives when it is taken (log entry 2). -/

namespace Sys2Proof.Machine

/-- START_TREE (R2). -/
def execStartTree (port : Port) (seq : Byte) (tree : Nat) (s : State) :
    Host.Outcome State Fault Refusal :=
  .next (s.arrive port { seq := seq, ask := .request (.startTree tree) })

/-- STOP_TREE (R6). -/
def execStopTree (port : Port) (seq : Byte) (tree : Nat) (s : State) :
    Host.Outcome State Fault Refusal :=
  .next (s.arrive port { seq := seq, ask := .request (.stopTree tree) })

/-- SET_TREE (R13). -/
def execSetTree (port : Port) (seq : Byte) (tree : Nat) (setting : Nat) (value : Nat) (s : State) :
    Host.Outcome State Fault Refusal :=
  .next (s.arrive port { seq := seq, ask := .request (.setTree tree setting value) })

/-- ADMIT (R36). -/
def execAdmitHome (port : Port) (seq : Byte) (serial : Serial) (tree : Nat) (c : Nat) (p : Nat) (w : Nat) (s : State) :
    Host.Outcome State Fault Refusal :=
  .next (s.arrive port { seq := seq, ask := .request (.admitHome serial tree c p w) })

/-- STRIKE (R37). -/
def execStrike (port : Port) (seq : Byte) (serial : Serial) (s : State) :
    Host.Outcome State Fault Refusal :=
  .next (s.arrive port { seq := seq, ask := .request (.strike serial) })

/-- SET_ADMISSION_MODE (R38). -/
def execSetAdmissionMode (port : Port) (seq : Byte) (mode : Nat) (s : State) :
    Host.Outcome State Fault Refusal :=
  .next (s.arrive port { seq := seq, ask := .request (.setAdmissionMode mode) })

/-- CALLS_ON (R42). -/
def execCallsOn (port : Port) (seq : Byte) (tree : Nat) (s : State) :
    Host.Outcome State Fault Refusal :=
  .next (s.arrive port { seq := seq, ask := .request (.callsOn tree) })

/-- CALLS_OFF (R42). -/
def execCallsOff (port : Port) (seq : Byte) (tree : Nat) (s : State) :
    Host.Outcome State Fault Refusal :=
  .next (s.arrive port { seq := seq, ask := .request (.callsOff tree) })

/-- WITHDRAW (R167). -/
def execWithdraw (port : Port) (seq : Byte) (tree : Nat) (tag : Nat) (s : State) :
    Host.Outcome State Fault Refusal :=
  .next (s.arrive port { seq := seq, ask := .request (.withdraw tree tag) })

/-- SET_ALLOCATIONS (R121). -/
def execSetAllocations (port : Port) (seq : Byte) (aLine : Nat) (aAccounting : Nat) (aSupervisor : Nat) (s : State) :
    Host.Outcome State Fault Refusal :=
  .next (s.arrive port { seq := seq, ask := .request (.setAllocations aLine aAccounting aSupervisor) })

/-- STALL (R120). -/
def execStall (port : Port) (seq : Byte) (named : Nat) (s : State) :
    Host.Outcome State Fault Refusal :=
  .next (s.arrive port { seq := seq, ask := .request (.stall named) })

/-- UNSTALL (R120). -/
def execUnstall (port : Port) (seq : Byte) (named : Nat) (s : State) :
    Host.Outcome State Fault Refusal :=
  .next (s.arrive port { seq := seq, ask := .request (.unstall named) })

/-- SET_ROUTE (R178). -/
def execSetRoute (port : Port) (seq : Byte) (kind : Nat) (named : Nat) (s : State) :
    Host.Outcome State Fault Refusal :=
  .next (s.arrive port { seq := seq, ask := .request (.setRoute kind named) })

/-- READ_TREE (R16). -/
def execReadTree (port : Port) (seq : Byte) (tree : Nat) (s : State) :
    Host.Outcome State Fault Refusal :=
  .next (s.arrive port { seq := seq, ask := .request (.readTree tree) })

/-- SET_CONTRACT (R108). -/
def execSetContract (port : Port) (seq : Byte) (tree : Nat) (tag : Nat) (c : Nat) (p : Nat) (w : Nat) (s : State) :
    Host.Outcome State Fault Refusal :=
  .next (s.arrive port { seq := seq, ask := .request (.setContract tree tag c p w) })

/-- SWITCH_BAND (R153). -/
def execSwitchBand (port : Port) (seq : Byte) (band : Nat) (s : State) :
    Host.Outcome State Fault Refusal :=
  .next (s.arrive port { seq := seq, ask := .request (.switchBand band) })

/-- CLOSE (R164). -/
def execCloseInterval (port : Port) (seq : Byte) (tree : Nat) (s : State) :
    Host.Outcome State Fault Refusal :=
  .next (s.arrive port { seq := seq, ask := .request (.closeInterval tree) })

/-- TAKE_RECORDS (R169). -/
def execTakeRecords (port : Port) (seq : Byte) (count : Nat) (s : State) :
    Host.Outcome State Fault Refusal :=
  .next (s.arrive port { seq := seq, ask := .request (.takeRecords count) })

/-- SET_WATCH (R157). -/
def execSetWatch (port : Port) (seq : Byte) (watch : Nat) (tree : Nat) (tag : Nat) (direction : Nat) (band : Nat) (threshold : Nat) (action : Nat) (s : State) :
    Host.Outcome State Fault Refusal :=
  .next (s.arrive port { seq := seq, ask := .request (.setWatch watch tree tag direction band threshold action) })

/-- CLEAR_WATCH (R159). -/
def execClearWatch (port : Port) (seq : Byte) (watch : Nat) (s : State) :
    Host.Outcome State Fault Refusal :=
  .next (s.arrive port { seq := seq, ask := .request (.clearWatch watch) })

/-- UNCAP (R160). -/
def execUncap (port : Port) (seq : Byte) (tree : Nat) (tag : Nat) (s : State) :
    Host.Outcome State Fault Refusal :=
  .next (s.arrive port { seq := seq, ask := .request (.uncap tree tag) })

/-- READ_METERS (R156). -/
def execReadMeters (port : Port) (seq : Byte) (tree : Nat) (tag : Nat) (s : State) :
    Host.Outcome State Fault Refusal :=
  .next (s.arrive port { seq := seq, ask := .request (.readMeters tree tag) })

/-- SET_JOURNAL_MARK (R170). -/
def execSetJournalMark (port : Port) (seq : Byte) (mark : Nat) (s : State) :
    Host.Outcome State Fault Refusal :=
  .next (s.arrive port { seq := seq, ask := .request (.setJournalMark mark) })

/-- SET_LIGHT_LIMIT (R124). -/
def execSetLightLimit (port : Port) (seq : Byte) (tree : Nat) (value : Nat) (scale : Nat) (s : State) :
    Host.Outcome State Fault Refusal :=
  .next (s.arrive port { seq := seq, ask := .request (.setLightLimit tree value scale) })

/-- SET_CONFIRM (R125). -/
def execSetConfirm (port : Port) (seq : Byte) (tree : Nat) (m : Nat) (v : Nat) (mOver : Nat) (s : State) :
    Host.Outcome State Fault Refusal :=
  .next (s.arrive port { seq := seq, ask := .request (.setConfirm tree m v mOver) })

/-- HUNT (R141). -/
def execHunt (port : Port) (seq : Byte) (tree : Nat) (s : State) :
    Host.Outcome State Fault Refusal :=
  .next (s.arrive port { seq := seq, ask := .request (.hunt tree) })

/-- ABANDON (R142). -/
def execAbandon (port : Port) (seq : Byte) (tree : Nat) (s : State) :
    Host.Outcome State Fault Refusal :=
  .next (s.arrive port { seq := seq, ask := .request (.abandon tree) })

/-- FENCE (R144). -/
def execFence (port : Port) (seq : Byte) (tree : Nat) (tag : Nat) (s : State) :
    Host.Outcome State Fault Refusal :=
  .next (s.arrive port { seq := seq, ask := .request (.fence tree tag) })

/-- RELEASE (R145). -/
def execRelease (port : Port) (seq : Byte) (tree : Nat) (tag : Nat) (s : State) :
    Host.Outcome State Fault Refusal :=
  .next (s.arrive port { seq := seq, ask := .request (.release tree tag) })

/-- READ_LIGHT (R146). -/
def execReadLight (port : Port) (seq : Byte) (tree : Nat) (s : State) :
    Host.Outcome State Fault Refusal :=
  .next (s.arrive port { seq := seq, ask := .request (.readLight tree) })

/-- READ_ROSTER (R40). -/
def execReadRoster (port : Port) (seq : Byte) (tree : Nat) (firstTag : Nat) (count : Nat) (s : State) :
    Host.Outcome State Fault Refusal :=
  .next (s.arrive port { seq := seq, ask := .request (.readRoster tree firstTag count) })

/-- FETCH_NOTICES (R181). -/
def execFetchNotices (port : Port) (seq : Byte) (count : Nat) (s : State) :
    Host.Outcome State Fault Refusal :=
  .next (s.arrive port { seq := seq, ask := .request (.fetchNotices count) })

/-- SET_THRESHOLD (R180). -/
def execSetThreshold (port : Port) (seq : Byte) (level : Nat) (s : State) :
    Host.Outcome State Fault Refusal :=
  .next (s.arrive port { seq := seq, ask := .request (.setThreshold level) })

/-- SET_HOLD_LIMIT (R118). -/
def execSetHoldLimit (port : Port) (seq : Byte) (limit : Nat) (s : State) :
    Host.Outcome State Fault Refusal :=
  .next (s.arrive port { seq := seq, ask := .request (.setHoldLimit limit) })

end Sys2Proof.Machine
end

