-- ==== Sys2Proof/Machine/ExecTime.lean ====
section
/-! DEFINITION. The meanings of the time rows: rounds, cuts, and the rows that name one event of a cut (log entries 3 and 4). -/

namespace Sys2Proof.Machine

/-- ROUND_START (R9, R12). -/
def execRoundStart (s : State) : Host.Outcome State Fault Refusal := .next s.beginRound

/-- CUT (R11, R92). -/
def execCut (s : State) : Host.Outcome State Fault Refusal := .next s.takeCut

/-- HELD_REQUEST_ENTRY (R117): the cut of the round, at which a port's held request is offered entry and leaves its slot. -/
def execHeldRequestEntry (port : Port) (s : State) : Host.Outcome State Fault Refusal :=
  .next (s.cutWhere (s.heldEnters port))

/-- HELD_TOO_LONG (R118): the cut of the round, at which the hold limit of a port's held request expires. -/
def execHeldTooLong (port : Port) (s : State) : Host.Outcome State Fault Refusal :=
  .next (s.cutWhere (s.heldTooLong port))

/-- CALL_SCHEDULE_DUE (R43, R44, R45): the cut of the round, which after the pass is due for a tree's enrolment engine. -/
def execCallScheduleDue (tree : TreeId) (s : State) : Host.Outcome State Fault Refusal :=
  .next (s.cutWhere (s.openCut.scheduleDue tree))

/-- DARK_CADENCE_DUE (R126): the cut of the round, which after the pass makes a dark window due on a tree. -/
def execDarkCadenceDue (tree : TreeId) (s : State) : Host.Outcome State Fault Refusal :=
  .next (s.cutWhere (s.openCut.cadenceDue tree))

end Sys2Proof.Machine
end

