-- ==== Sys2Proof/Machine/ExecTraffic.lean ====
section
/-! DEFINITION. The meanings of the traffic rows. -/

namespace Sys2Proof.Machine

/-- PACKET_OFFERED (R71). -/
def execPacketOffered (tree : TreeId) (tag : Nat) (payload : List Byte) (s : State) : Host.Outcome State Fault Refusal :=
  .next (s.offerPacket tree tag payload)

/-- HELD_PACKET_TAKEN (R71). -/
def execHeldPacketTaken (s : State) : Host.Outcome State Fault Refusal := .next s.takeHeldPacket

/-- PACKET_DELIVERED (R80). -/
def execPacketDelivered (s : State) : Host.Outcome State Fault Refusal := .next s.deliverOldest

end Sys2Proof.Machine
end

