-- ==== Sys2Proof/Machine/Dispatch.lean ====
section
/-! DEFINITION. The effect of each command on everything but the queue of commands: one meaning per row of the table. -/

namespace Sys2Proof.Machine

def exec (i : Instr) (s : State) : Host.Outcome State Fault Refusal :=
  match i with
  | .powerOnReset => Sys2Proof.Machine.execPowerOnReset s
  | .requestArrival port message => Sys2Proof.Machine.execRequestArrival port message s
  | .waitingRequestTaken port => Sys2Proof.Machine.execWaitingRequestTaken port s
  | .portReset port seq => Sys2Proof.Machine.execPortReset port seq s
  | .startTree port seq tree => Sys2Proof.Machine.execStartTree port seq tree s
  | .stopTree port seq tree => Sys2Proof.Machine.execStopTree port seq tree s
  | .setTree port seq tree setting value => Sys2Proof.Machine.execSetTree port seq tree setting value s
  | .admitHome port seq serial tree c p w => Sys2Proof.Machine.execAdmitHome port seq serial tree c p w s
  | .strike port seq serial => Sys2Proof.Machine.execStrike port seq serial s
  | .setAdmissionMode port seq mode => Sys2Proof.Machine.execSetAdmissionMode port seq mode s
  | .callsOn port seq tree => Sys2Proof.Machine.execCallsOn port seq tree s
  | .callsOff port seq tree => Sys2Proof.Machine.execCallsOff port seq tree s
  | .withdraw port seq tree tag => Sys2Proof.Machine.execWithdraw port seq tree tag s
  | .setAllocations port seq aLine aAccounting aSupervisor => Sys2Proof.Machine.execSetAllocations port seq aLine aAccounting aSupervisor s
  | .stall port seq named => Sys2Proof.Machine.execStall port seq named s
  | .unstall port seq named => Sys2Proof.Machine.execUnstall port seq named s
  | .setRoute port seq kind named => Sys2Proof.Machine.execSetRoute port seq kind named s
  | .readTree port seq tree => Sys2Proof.Machine.execReadTree port seq tree s
  | .setContract port seq tree tag c p w => Sys2Proof.Machine.execSetContract port seq tree tag c p w s
  | .switchBand port seq band => Sys2Proof.Machine.execSwitchBand port seq band s
  | .closeInterval port seq tree => Sys2Proof.Machine.execCloseInterval port seq tree s
  | .takeRecords port seq count => Sys2Proof.Machine.execTakeRecords port seq count s
  | .setWatch port seq watch tree tag direction band threshold action => Sys2Proof.Machine.execSetWatch port seq watch tree tag direction band threshold action s
  | .clearWatch port seq watch => Sys2Proof.Machine.execClearWatch port seq watch s
  | .uncap port seq tree tag => Sys2Proof.Machine.execUncap port seq tree tag s
  | .readMeters port seq tree tag => Sys2Proof.Machine.execReadMeters port seq tree tag s
  | .setJournalMark port seq mark => Sys2Proof.Machine.execSetJournalMark port seq mark s
  | .setLightLimit port seq tree value scale => Sys2Proof.Machine.execSetLightLimit port seq tree value scale s
  | .setConfirm port seq tree m v mOver => Sys2Proof.Machine.execSetConfirm port seq tree m v mOver s
  | .hunt port seq tree => Sys2Proof.Machine.execHunt port seq tree s
  | .abandon port seq tree => Sys2Proof.Machine.execAbandon port seq tree s
  | .fence port seq tree tag => Sys2Proof.Machine.execFence port seq tree tag s
  | .release port seq tree tag => Sys2Proof.Machine.execRelease port seq tree tag s
  | .readLight port seq tree => Sys2Proof.Machine.execReadLight port seq tree s
  | .readRoster port seq tree firstTag count => Sys2Proof.Machine.execReadRoster port seq tree firstTag count s
  | .fetchNotices port seq count => Sys2Proof.Machine.execFetchNotices port seq count s
  | .setThreshold port seq level => Sys2Proof.Machine.execSetThreshold port seq level s
  | .setHoldLimit port seq limit => Sys2Proof.Machine.execSetHoldLimit port seq limit s
  | .roundStart => Sys2Proof.Machine.execRoundStart s
  | .cut => Sys2Proof.Machine.execCut s
  | .heldRequestEntry port => Sys2Proof.Machine.execHeldRequestEntry port s
  | .heldTooLong port => Sys2Proof.Machine.execHeldTooLong port s
  | .callScheduleDue tree => Sys2Proof.Machine.execCallScheduleDue tree s
  | .darkCadenceDue tree => Sys2Proof.Machine.execDarkCadenceDue tree s
  | .darkWindowEnd tree samples => Sys2Proof.Machine.execDarkWindowEnd tree samples s
  | .callWindowEnd tree light => Sys2Proof.Machine.execCallWindowEnd tree light s
  | .probeWindowEnd tree light => Sys2Proof.Machine.execProbeWindowEnd tree light s
  | .burstEnd tree round burst => Sys2Proof.Machine.execBurstEnd tree round burst s
  | .burstRunOn tree round start => Sys2Proof.Machine.execBurstRunOn tree round start s
  | .grantEnd tree round tag light => Sys2Proof.Machine.execGrantEnd tree round tag light s
  | .guardEnd tree round tag begins samples => Sys2Proof.Machine.execGuardEnd tree round tag begins samples s
  | .idleStretchEnd tree samples => Sys2Proof.Machine.execIdleStretchEnd tree samples s
  | .packetOffered tree tag payload => Sys2Proof.Machine.execPacketOffered tree tag payload s
  | .heldPacketTaken => Sys2Proof.Machine.execHeldPacketTaken s
  | .packetDelivered => Sys2Proof.Machine.execPacketDelivered s

end Sys2Proof.Machine
end

