-- ==== Sys2Proof/Machine/Formats.lean ====
section
/-! DEFINITION. The layouts a master or a home sees (chapter 12): answers and their results, notice entries, usage records,
and the head of a frame, as bytes. Widths and layouts the manual leaves to "the width that its range requires" are log
entry 10. -/

namespace Sys2Proof.Machine

/-! ## Codes (section 12.1, R183) -/

/-- Status codes 0–11, in the order of the status list (section 12.1). -/
def Status.code : Status → Nat
  | .done => 0
  | .staged => 1
  | .portBusy => 2
  | .notPermitted => 3
  | .badArgument => 4
  | .wrongState => 5
  | .noSuchHome => 6
  | .overbook => 7
  | .listFull => 8
  | .journalShort => 9
  | .allocBusy => 10
  | .heldTooLong => 11

/-- Notice kind codes 1–18, in the order of the table of R177 (section 12.1). -/
def NoticeKind.code : NoticeKind → Nat
  | .homeHeard => 1
  | .homeActive => 2
  | .enrolFailed => 3
  | .stranger => 4
  | .serialClash => 5
  | .homeSilent => 6
  | .reachLimit => 7
  | .treeReady => 8
  | .treeFault => 9
  | .intervalClosed => 10
  | .journalHigh => 11
  | .watchFired => 12
  | .lightSeen => 13
  | .lightGone => 14
  | .rogueContained => 15
  | .rogueUnresolved => 16
  | .overrunFence => 17
  | .applied => 18

/-- Port codes (R183). -/
def portCode : Port → Nat
  | .line => 1
  | .accounting => 2
  | .supervisor => 3

/-- Tree state codes (R183). -/
def TreeState.code : TreeState → Nat
  | .down => 0
  | .settling => 1
  | .running => 2
  | .faulted => 3

/-- Entry state codes (R183). -/
def EntryState.code : EntryState → Nat
  | .vacant => 0
  | .heard => 1
  | .timed => 2
  | .active => 3
  | .silent => 4
  | .fenced => 5
  | .leaving => 6

/-- Suspicion state codes (R183). -/
def SuspicionName.code : SuspicionName → Nat
  | .clear => 0
  | .watch => 1
  | .hunt => 2
  | .unresolved => 3

/-- Setting codes (R183). -/
def SettingName.code : SettingName → Nat
  | .target => 1
  | .nearBound => 2
  | .overhead => 3
  | .minBurst => 4
  | .wCall => 5
  | .kCall => 6
  | .wDark => 7
  | .kDark => 8
  | .poll => 9
  | .silence => 10
  | .defaultPeak => 11

/-- Enrolment failure reasons, from 1 in the order of R61 (R183). -/
def FailReason.code : FailReason → Nat
  | .treeFull => 1
  | .outOfReach => 2
  | .noEcho => 3
  | .noGreeting => 4

/-- Hunt results, from 1 in the order of R123 (R183): the same code in the last hunt result, in ROGUE_UNRESOLVED and in the answer
to HUNT, although R140 and R141 list fewer (DESIGN CHOICE, log entry 29). -/
def HuntReason.code : HuntReason → Nat
  | .contained => 1
  | .foreign => 2
  | .elusive => 3
  | .empty => 4
  | .abandoned => 5

/-- Order kinds, from 1 in the order of section 2.2 (R183). -/
def OrderKind.code : OrderKind → Nat
  | .fence => 1
  | .release => 2
  | .drop => 3
  | .hush => 4
  | .wake => 5
  | .assign => 6
  | .probe => 7
  | .adjust => 8

/-- The eight kinds of order, in the order of section 2.2. -/
def allOrders : List OrderKind := [.fence, .release, .drop, .hush, .wake, .assign, .probe, .adjust]

/-- Watch directions (R183). -/
def Direction.code : Direction → Nat
  | .up => 1
  | .down => 2
  | .both => 3

/-! ## Fields -/

/-- A mark, or yes and no: 1 and 0 (R183). -/
def markByte (b : Bool) : List Byte := beBytes 1 (if b then 1 else 0)

/-- A field that may be absent: a presence byte, then its bytes, 0 where it is absent (R183). -/
def optField (width : Nat) (v : Option Nat) : List Byte :=
  match v with
  | some n => beBytes 1 1 ++ beBytes width n
  | none => beBytes 1 0 ++ beBytes width 0

/-- A field of several parts that may be absent (R183). -/
def optBytes (width : Nat) (v : Option (List Byte)) : List Byte :=
  match v with
  | some bytes => beBytes 1 1 ++ bytes
  | none => beBytes 1 0 ++ beBytes width 0

/-- A mark of a state that may not have it; the absent mark reads "no" (section 2.2), behind its presence byte. -/
def optMark (v : Option Bool) : List Byte := optField 1 (v.map fun b => if b then 1 else 0)

/-- A list: its length in one byte, then its members (log entry 10). -/
def listBytes (width : Nat) (xs : List Nat) : List Byte := beBytes 1 xs.length ++ xs.flatMap (beBytes width)

/-- A tree, or 255 for ANY, ALL or none (section 12). -/
def treeByte (t : Option TreeId) : List Byte :=
  match t with
  | some t => beBytes 1 t.val
  | none => beBytes 1 255

/-- A serial in 8 bytes. -/
def serialBytes (s : Serial) : List Byte := beBytes 8 s.toNat

/-- A round number in 4 bytes. -/
def roundBytes4 (r : Round) : List Byte := beBytes 4 r.toNat

/-- A contract: c, p in 2 bytes each, w in 1. -/
def contractBytes (k : Contract) : List Byte := beBytes 2 k.c ++ beBytes 2 k.p ++ beBytes 1 k.w

/-- The four bands of a byte count, 6 bytes each. -/
def bandBytes (q : Quad Nat) : List Byte := q.toList.flatMap (beBytes 6)

/-! ## Notices -/

/-- The kind of a change, from 1 in the order of R111 (R183). -/
def Change.code : Change → Nat
  | .contract _ _ _ => 1
  | .treeSetting _ _ _ => 2
  | .withdraw _ _ => 3
  | .fence _ _ => 4
  | .release _ _ => 5
  | .uncap _ _ => 6
  | .switchBand _ => 7
  | .closeInterval _ => 8

/-- The tag a change names; absent for the kinds without one (R111). -/
def Change.tag : Change → Option Nat
  | .contract _ tag _ => some tag
  | .withdraw _ tag => some tag
  | .fence _ tag => some tag
  | .release _ tag => some tag
  | .uncap _ tag => some tag
  | _ => none

/-- The tree of a change with its presence byte; ALL is 255 and SWITCH BAND has none (R111, R183). -/
def Change.treeBytes : Change → List Byte
  | .switchBand _ => optField 1 none
  | c => beBytes 1 1 ++ treeByte c.keyTree

/-- The values of a change, in the kinds that have them: c, p, w; setting and value; band (R111). The value of a setting takes two
bytes: T, N and H are never staged (R13), and no other setting passes 1,875 (log entry 10). -/
def Change.values : Change → Option (List Byte)
  | .contract _ _ v => some (contractBytes v)
  | .treeSetting _ name v => some (beBytes 1 name.code ++ beBytes 2 v)
  | .switchBand b => some (beBytes 1 b.val)
  | _ => none

/-- A change in the detail of APPLIED: kind, tree, tag, values (R116, R183). Absent values take the five bytes that those of a
CONTRACT take, all 0 (DEDUCED, log entry 10). -/
def Change.bytes (c : Change) : List Byte :=
  beBytes 1 c.code ++ c.treeBytes ++ optField 1 c.tag ++ optBytes 5 c.values

/-- The detail of a notice, its fields in the order its rule names them (R183). The token of ENROL_FAILED, which the list of R61
does not name, stands behind the reason (DESIGN CHOICE, log entry 40). -/
def Detail.bytes : Detail → List Byte
  | .homeHeard t tag serial token re cut =>
    beBytes 1 t.val ++ beBytes 1 tag ++ serialBytes serial ++ beBytes 4 token.toNat ++ markByte re ++ markByte cut
  | .homeActive t tag serial re => beBytes 1 t.val ++ beBytes 1 tag ++ serialBytes serial ++ markByte re
  | .enrolFailed t tag serial reason token rt toSilent =>
    beBytes 1 t.val ++ beBytes 1 tag ++ serialBytes serial ++ beBytes 1 reason.code ++
    optField 4 (token.map BitVec.toNat) ++ optField 3 rt ++ markByte toSilent
  | .stranger serial token t => serialBytes serial ++ beBytes 4 token.toNat ++ beBytes 1 t.val
  | .serialClash serial token t ht htag hs =>
    serialBytes serial ++ beBytes 4 token.toNat ++ beBytes 1 t.val ++ beBytes 1 ht.val ++ beBytes 1 htag ++
    beBytes 1 hs.code
  | .homeSilent t tag serial => beBytes 1 t.val ++ beBytes 1 tag ++ serialBytes serial
  | .reachLimit t tag serial offset before after =>
    beBytes 1 t.val ++ beBytes 1 tag ++ serialBytes serial ++ [BitVec.ofInt 8 offset] ++ beBytes 3 before ++
    beBytes 3 after
  | .treeReady t baseline => beBytes 1 t.val ++ beBytes 2 baseline
  | .treeFault t baseline => beBytes 1 t.val ++ beBytes 2 baseline
  | .intervalClosed t number cut written carried held booked =>
    beBytes 1 t.val ++ roundBytes4 number ++ roundBytes4 cut ++ beBytes 1 written ++ beBytes 1 carried ++
    beBytes 2 held ++ beBytes 2 booked
  | .journalHigh held booked mark round => beBytes 2 held ++ beBytes 2 booked ++ beBytes 2 mark ++ roundBytes4 round
  | .watchFired n t tag serial sum threshold throttle =>
    beBytes 1 n ++ beBytes 1 t.val ++ beBytes 1 tag ++ serialBytes serial ++ beBytes 7 sum ++ beBytes 6 threshold ++
    beBytes 1 (if throttle then 2 else 1)
  | .lightSeen t round level limit stray =>
    beBytes 1 t.val ++ roundBytes4 round ++ beBytes 2 level ++ beBytes 2 limit ++ beBytes 1 (if stray then 2 else 1)
  | .lightGone t round hits => beBytes 1 t.val ++ roundBytes4 round ++ beBytes 1 hits
  | .rogueContained t tag serial steps started =>
    beBytes 1 t.val ++ beBytes 1 tag ++ serialBytes serial ++ beBytes 1 steps ++ roundBytes4 started
  | .rogueUnresolved t reason steps started candidate =>
    beBytes 1 t.val ++ beBytes 1 reason.code ++ beBytes 1 steps ++ roundBytes4 started ++ optField 1 candidate
  | .overrunFence t tag serial overruns level round =>
    beBytes 1 t.val ++ beBytes 1 tag ++ serialBytes serial ++ beBytes 1 overruns ++ beBytes 2 level ++ roundBytes4 round
  | .applied change taken ok voids =>
    change.bytes ++ roundBytes4 taken ++ beBytes 1 (if ok then 1 else 2) ++ beBytes 2 voids

/-- A fetched notice entry (section 12.1): kind, key tree, severity, count, first-seen round, detail. -/
def NoticeEntry.bytes (e : NoticeEntry) : List Byte :=
  beBytes 1 e.kind.code ++ treeByte e.tree ++ beBytes 1 e.severity.rank ++ beBytes 2 e.count ++ roundBytes4 e.firstSeen ++
  e.detail.bytes

/-! ## Usage records (section 12.4) -/

/-- The marks byte of a record: bit 0 partial, bit 1 saturated, bit 2 capped-during. -/
def Meters.marks (m : Meters) : Nat :=
  (if m.partialSpan then 1 else 0) + (if m.saturated then 2 else 0) + (if m.cappedDuring then 4 else 0)

/-- A usage record in 120 bytes. -/
def Record.bytes (r : Record) : List Byte :=
  beBytes 1 (if r.final then 2 else 1) ++ beBytes 1 r.tree.val ++ beBytes 1 r.tag ++ beBytes 1 r.meters.marks ++
  serialBytes r.serial ++ roundBytes4 r.interval ++ roundBytes4 r.meters.openedCut ++ roundBytes4 r.closedCut ++
  bandBytes r.meters.up ++ bandBytes r.meters.down ++ bandBytes r.meters.withheld ++
  beBytes 4 r.meters.granted ++ beBytes 4 r.meters.inService ++ beBytes 4 r.meters.hushed ++ beBytes 4 r.meters.fenced ++
  contractBytes r.contract ++ beBytes 3 0

/-! ## Results -/

/-- What READ TREE shows, in the order of R16 and of the table of section 1.5. -/
def TreeReading.bytes (r : TreeReading) : List Byte :=
  roundBytes4 r.round ++ beBytes 1 r.phase.code ++ beBytes 1 r.settlingCount ++
  beBytes 3 r.settings.target ++ beBytes 3 r.settings.nearBound ++ beBytes 1 r.settings.overhead ++
  beBytes 1 r.settings.minBurst ++ beBytes 2 r.settings.wCall ++ beBytes 2 r.settings.kCall ++ beBytes 1 r.settings.wDark ++
  beBytes 2 r.settings.kDark ++ beBytes 1 r.settings.poll ++ beBytes 1 r.settings.silence ++
  beBytes 2 r.settings.defaultPeak ++ beBytes 1 r.limitValue ++ beBytes 1 r.limitScale ++ beBytes 1 r.m ++ beBytes 1 r.v ++
  beBytes 1 r.mOver ++ beBytes 2 r.bookedCall ++ beBytes 1 r.bookedDark ++ beBytes 2 r.bookingSum ++ markByte r.calls ++
  beBytes 4 r.collisions ++ r.counts.flatMap (beBytes 1) ++ beBytes 1 r.lead ++ beBytes 3 r.fill

/-- The hunt record (R123): phase, suspect list, group, candidate, quiet set, effective round, dark run, steps, started. -/
def Hunt.bytes (h : Hunt) : List Byte :=
  let group := match h.phase with
    | .search g => some (listBytes 1 g)
    | _ => none
  let candidate := match h.phase with
    | .search _ => none
    | .trial c => some c
    | .allQuiet c _ => some c
  let quiet := match h.phase with
    | .allQuiet _ q => some (listBytes 1 q)
    | _ => none
  beBytes 1 (match h.phase with
    | .search _ => 1
    | .trial _ => 2
    | .allQuiet _ _ => 3) ++
  listBytes 1 h.suspects ++ optBytes 1 group ++ optField 1 candidate ++ optBytes 1 quiet ++
  optField 4 (h.effective.map BitVec.toNat) ++ beBytes 1 h.darkRun ++ beBytes 1 h.steps ++ roundBytes4 h.started

/-- The bytes of a hunt record whose lists are empty: those an absent record takes, all 0 (DEDUCED, log entry 10). -/
def huntBytes : Nat := 19

/-- What READ LIGHT shows, in the order of R146; the hunt record is absent outside HUNT. -/
def LightReading.bytes (r : LightReading) : List Byte :=
  beBytes 2 r.baseline ++ beBytes 1 r.limitValue ++ beBytes 1 r.limitScale ++ beBytes 2 r.effectiveLimit ++
  beBytes 1 r.m ++ beBytes 1 r.v ++ beBytes 1 r.mOver ++ beBytes 1 r.suspicion.name.code ++
  listBytes 1 (r.observations.map fun hit => if hit then 1 else 2) ++ beBytes 1 r.cadence ++ beBytes 2 r.kDark ++
  beBytes 4 r.strays ++
  optBytes 6 (r.lastDark.map fun x => beBytes 2 x.1 ++ roundBytes4 x.2) ++
  optBytes 7 (r.lastHunt.map fun x => beBytes 1 x.reason.code ++ roundBytes4 x.round ++ optField 1 x.tag) ++
  optBytes huntBytes (match r.suspicion with
    | .hunt h => some h.bytes
    | _ => none)

/-- A watch in the results of READ METERS: number, state, fields (R156, R157). -/
def watchBytes (x : Nat × Watch) : List Byte :=
  beBytes 1 x.1 ++ beBytes 1 (if x.2.fired then 2 else 1) ++ beBytes 1 x.2.tree.val ++ beBytes 1 x.2.tag ++
  beBytes 1 x.2.direction.code ++ treeByte x.2.band ++ beBytes 6 x.2.threshold ++ beBytes 1 (if x.2.throttle then 2 else 1)

/-- What READ METERS shows, in the order of R156; closed meters read as zeros. The capped mark has no presence byte: that of a
VACANT slot reads "no" (DESIGN CHOICE, log entry 38). -/
def MeterReading.bytes (r : MeterReading) : List Byte :=
  let m := r.meters.getD (zeroMeters 0 false)
  roundBytes4 r.round ++ beBytes 1 r.band.val ++ beBytes 1 r.state.code ++
  optField 8 (r.occupant.map fun x => x.1.toNat) ++ optField 4 (r.occupant.map fun x => x.2.toNat) ++
  markByte r.meters.isSome ++ optField 4 (r.meters.map fun m => m.openedCut.toNat) ++
  bandBytes m.up ++ bandBytes m.down ++ bandBytes m.withheld ++
  beBytes 4 m.granted ++ beBytes 4 m.inService ++ beBytes 4 m.hushed ++ beBytes 4 m.fenced ++
  markByte m.partialSpan ++ markByte m.saturated ++ markByte m.cappedDuring ++ markByte r.capped ++
  beBytes 1 r.watches.length ++ r.watches.flatMap watchBytes

/-- The fields of section 2.2 of a slot in the results of READ ROSTER, in that table's order (R40, R183). -/
def slotBytes (x : Nat × Option Entry) : List Byte :=
  let body := x.2.map Entry.body
  let heard : Option Heard := match body with
    | some (.heard f) => some f
    | _ => none
  let timed : Option Timed := match body with
    | some (.timed f) => some f
    | _ => none
  let need : Option (Nat × Nat × Option Round × List Bool) := match body with
    | some (.active f) => some (f.need, f.credit, f.lastGranted, f.history)
    | some (.fenced f) => some (f.need, f.credit, f.lastGranted, f.history)
    | _ => none
  let misses : Option Nat := match body with
    | some (.active f) => some f.missCount
    | _ => none
  let reEnrolling : Option Bool := match body with
    | some (.heard f) => some f.keptDelay.isSome
    | some (.timed f) => some f.former.isSome
    | _ => none
  let hushed : Option Bool := match body with
    | some (.timed f) => some f.hushed
    | some (.active f) => some f.hushed
    | some (.silent f) => some f.hushed
    | some (.fenced f) => some f.hushed
    | _ => none
  let trial : Option Bool := match body with
    | some (.fenced f) => some f.trial
    | _ => none
  beBytes 1 x.1 ++
  beBytes 1 (match x.2 with
    | some e => e.state.code
    | none => EntryState.vacant.code) ++
  optField 8 (x.2.map fun e => e.serial.toNat) ++ optField 4 (x.2.map fun e => e.occupied.toNat) ++
  optBytes 5 (x.2.map fun e => contractBytes e.contract) ++ optField 2 (x.2.map Entry.booked) ++
  optField 3 (x.2.bind Entry.delay) ++ optField 3 (timed.bind Timed.former) ++ optMark reEnrolling ++
  optField 4 (heard.map fun f => f.heardRound.toNat) ++ optField 1 (heard.map Heard.tries) ++
  optField 1 (timed.map Timed.misses) ++ optField 1 misses ++ optField 2 (need.map fun n => n.1) ++
  optField 3 (need.map fun n => n.2.1) ++ optField 4 (need.bind fun n => n.2.2.1.map BitVec.toNat) ++
  optBytes 1 (need.map fun n => listBytes 1 (n.2.2.2.map fun hit => if hit then 1 else 2)) ++
  optMark hushed ++ optMark trial ++ optMark (x.2.map Entry.capped) ++
  optBytes 1 (x.2.map fun e => listBytes 1 ((allOrders.filter fun k => e.owed.has k).map OrderKind.code))

/-- The results of an answer, in the order the request's rule names them (section 12.1, R183). The result UNRESOLVED of a HUNT
without a suspect has the code of the suspicion state UNRESOLVED (DESIGN CHOICE, log entry 30), and it and its reason stand in
place of the two numbers, as two bytes without presence bytes (DESIGN CHOICE, log entry 43). -/
def Results.bytes : Results → List Byte
  | .nothing => []
  | .stopped vacant silent fenced hunt packets =>
    beBytes 1 vacant ++ beBytes 1 silent ++ beBytes 1 fenced ++ markByte hunt ++ beBytes 2 packets
  | .admitted held replaced => beBytes 2 held ++ markByte replaced
  | .struck held => beBytes 1 held
  | .allocations l a v => beBytes 1 l ++ beBytes 1 a ++ beBytes 1 v
  | .routedBefore p => beBytes 1 (portCode p)
  | .treeReading r => r.bytes
  | .records taken held booked =>
    beBytes 1 taken.length ++ taken.flatMap Record.bytes ++ beBytes 2 held ++ beBytes 2 booked
  | .watchSet sum fired => beBytes 7 sum ++ beBytes 1 (if fired then 2 else 1)
  | .meterReading r => r.bytes
  | .heldCount held => beBytes 2 held
  | .effectiveLimit limit => beBytes 2 limit
  | .huntStarted suspects group => beBytes 1 suspects ++ beBytes 1 group
  | .huntForeign => beBytes 1 SuspicionName.unresolved.code ++ beBytes 1 HuntReason.foreign.code
  | .suspicionBefore name => beBytes 1 name.code
  | .lightReading r => r.bytes
  | .roster slots => slots.flatMap slotBytes
  | .notices entries left => beBytes 1 entries.length ++ entries.flatMap NoticeEntry.bytes ++ beBytes 1 left
  | .atThreshold entries => beBytes 1 entries
  | .discarded n k => beBytes 1 n ++ beBytes 1 k

/-- An answer message (section 12.1): length, sequence byte, status, results. -/
def Answer.bytes (a : Answer) : List Byte :=
  let results := a.results.bytes
  beBytes 2 (results.length + 2) ++ [a.seq] ++ beBytes 1 a.status.code ++ results

/-! ## The frame (section 12.2, R184) -/

/-- Grant kinds (section 12.2). -/
def GrantKind.code : GrantKind → Nat
  | .data => 1
  | .greeting => 2
  | .poll => 3

/-- A grant record: tag, kind, start quantum, length. -/
def Grant.bytes (g : Grant) : List Byte :=
  beBytes 1 g.tag ++ beBytes 1 g.kind.code ++ beBytes 2 g.start ++ beBytes 2 g.length

/-- An order place: its kind byte and its body (section 12.2). -/
def OrderPlace.bytes : OrderPlace → List Byte
  | .fence serial tag => beBytes 1 1 ++ serialBytes serial ++ beBytes 1 tag
  | .drop serial tag => beBytes 1 2 ++ serialBytes serial ++ beBytes 1 tag
  | .hush tags => beBytes 1 3 ++ listBytes 1 tags
  | .wake tags => beBytes 1 4 ++ listBytes 1 tags
  | .release tag => beBytes 1 5 ++ beBytes 1 tag
  | .assign serial tag e => beBytes 1 6 ++ serialBytes serial ++ beBytes 1 tag ++ beBytes 3 e
  | .probe serial tag => beBytes 1 7 ++ serialBytes serial ++ beBytes 1 tag
  | .adjust tag e => beBytes 1 8 ++ beBytes 1 tag ++ beBytes 3 e

/-- The window notice (R46, section 12.2): kind 0 none, 1 CALL, 2 PROBE; opening quantum; width. Without a window the last two are
0 (DESIGN CHOICE, log entry 39). -/
def windowNotice : Option PlanWindow → List Byte
  | none => beBytes 1 0 ++ beBytes 2 0 ++ beBytes 2 0
  | some w =>
    beBytes 1 (match w.kind with
      | .call => 1
      | .probe _ => 2) ++ beBytes 2 w.opening ++ beBytes 2 w.width

/-- The head of a frame (R184): round header, window notice, plan, order places. -/
def Frame.headBytes (f : Frame) (t : TreeId) : List Byte :=
  beBytes 1 t.val ++ markByte f.settling ++ roundBytes4 f.round ++ beBytes 1 f.grants.length ++
  beBytes 1 f.general.length ++
  windowNotice f.window ++ beBytes 1 (f.dark.getD 0) ++ f.grants.flatMap Grant.bytes ++
  (match f.enrolment with
    | some o => o.bytes
    | none => beBytes 1 0) ++
  f.general.flatMap OrderPlace.bytes

/-- What the framer hands the serializer (R184): a byte of the frame, or a mark, which takes no byte of it. A start mark carries a
packet's tag and length. -/
inductive SerialItem where
  | byte (b : Byte)
  | startMark (tag : Byte) (length : BitVec 16)
  | endMark
deriving DecidableEq, Repr

/-- A packet as the serializer takes it: start mark, payload bytes, end mark (R184). -/
def DownPacket.serial (p : DownPacket) : List SerialItem :=
  .startMark (BitVec.ofNat 8 p.tag) (BitVec.ofNat 16 p.payload.length) :: p.payload.map .byte ++ [.endMark]

/-- A frame as the framer hands it to the serializer (R184): its head, its packets between marks, then padding of 0. -/
def Frame.serial (f : Frame) (t : TreeId) : List SerialItem :=
  let head := f.headBytes t
  let used := head.length + (f.payload.map fun p => p.payload.length).sum
  head.map .byte ++ f.payload.flatMap DownPacket.serial ++ List.replicate (frameBytes - used) (.byte 0)

/-- The byte of an item; none for a mark. -/
def SerialItem.byte? : SerialItem → Option Byte
  | .byte b => some b
  | _ => none

/-- The bytes of a frame (R184): what the serializer takes but the marks. -/
def Frame.bytes (f : Frame) (t : TreeId) : List Byte := (f.serial t).filterMap SerialItem.byte?

end Sys2Proof.Machine
end

