-- ==== Sys2Proof/Safety.lean ====
section
/-! DEFINITION. What a sound state of the part is: the properties the manual says hold at every instant, in the terms the
statements use. -/

namespace Sys2Proof.Machine

/-! ## Ports -/

/-- Both slots of a port are empty, so that a request that arrives is taken at once (R172). -/
def PortFree (s : State) (p : Port) : Prop := (s.port p).inProgress = none ∧ (s.port p).waiting = none

/-- R172: a request waits only behind one that is in progress. -/
def SlotsOrdered (s : State) : Prop := ∀ p : Port, (s.port p).inProgress = none → (s.port p).waiting = none

/-- A port's queue has room for a change request of its own: it is not stalled and holds fewer entries than its allocation
(R112). -/
def QueueOpen (s : State) (p : Port) : Prop :=
  (s.port p).stalled = false ∧ (s.queue.filter fun q => q.origin = p).length < (s.port p).allocation

/-- The change queue with one more change of a port behind it, taken in the round in progress (R111, R112). -/
def queueWith (s : State) (p : Port) (c : Change) : List ChangeEntry :=
  s.queue ++ [{ origin := p, change := c, roundTaken := s.round, voided := false }]

/-- The part with a change of a port held in the port's in-progress slot (R112, R117). -/
def heldWith (s : State) (p : Port) (q : Byte) (c : Change) : State :=
  { s with tickets := s.tickets + 1 }.setPort p
    { s.port p with inProgress := some { seq := q, change := c, roundTaken := s.round, ticket := s.tickets } }

/-- An entry with a changed body: nothing else of it differs. -/
def Entry.withBody (e : Entry) (b : Body) : Entry := { e with body := b }

/-! ## The change queue and the journal -/

/-- R119: the three allocations sum to at most 32, and no port holds more queue entries than its allocation. -/
def QueueWithin (s : State) : Prop :=
  (s.port .line).allocation + (s.port .accounting).allocation + (s.port .supervisor).allocation ≤ 32 ∧
  ∀ p : Port, s.queuedOf p ≤ (s.port p).allocation

/-- The WITHDRAW requests that still wait: those in the queue and those held in a port. -/
def waitingWithdraws (s : State) : Nat :=
  s.queue.countP (fun q => q.change.isWithdraw) +
  allPorts.countP fun p => match (s.port p).inProgress with
    | some h => h.change.isWithdraw
    | none => false

/-- R161, R167: held records plus booked final places never exceed 2,048, and one place is booked for each WITHDRAW that
still waits. -/
def JournalWithin (s : State) : Prop :=
  s.journal.records.length + s.journal.booked ≤ journalPlaces ∧ s.journal.booked = waitingWithdraws s

/-! ## Notices -/

/-- R180: the notice line of every port shows its condition. -/
def LinesShown (s : State) : Prop :=
  ∀ p : Port, (s.port p).line = lineCondition (s.port p).threshold (s.port p).notices

/-- R179: a port's notice queue never holds two entries with the same kind and tree. -/
def NoticeKeysUnique (s : State) : Prop :=
  ∀ p : Port, ((s.port p).notices.map fun e => (e.kind, e.tree)).Nodup

/-! ## Stores, serials, delays -/

/-- Every keyed store has its canonical form, and its keys are places the manual gives: 512 slots, 8 watches. -/
def StoresCanonical (s : State) : Prop :=
  Store.Wf s.roster ∧ Store.Wf s.meters ∧ Store.Wf s.watches ∧ Store.Wf s.admissions ∧
  (∀ x ∈ s.roster, x.1 < 512) ∧ (∀ x ∈ s.watches, x.1 < 8)

/-- R34: no two entries outside VACANT hold the same serial, on the same tree or on different trees. -/
def SerialsUnique (s : State) : Prop := s.roster.Pairwise fun a b => a.2.serial ≠ b.2.serial

/-- The delays an entry holds, its former delay among them, are at most a T (R19). -/
def Entry.delaysWithin (target : Nat) (e : Entry) : Prop :=
  (∀ d ∈ e.delay, d ≤ target) ∧
  match e.body with
  | .timed f => ∀ d ∈ f.former, d ≤ target
  | _ => True

/-- A change that may wait for a cut: SET TREE of T, N or H never does (R13). -/
def Change.mayWait : Change → Bool
  | .treeSetting _ name _ => !name.atOnce
  | _ => true

/-- Every change that waits, in the queue or held, is one that may (R13). -/
def ChangesMayWait (s : State) : Prop :=
  (∀ q ∈ s.queue, q.change.mayWait = true) ∧ ∀ p : Port, ∀ h ∈ (s.port p).inProgress, h.change.mayWait = true

/-- R19: every delay an entry of a tree holds lies within 0 to the tree's T. -/
def DelaysWithin (s : State) : Prop :=
  ChangesMayWait s ∧ ∀ t : TreeId, ∀ x ∈ s.treeEntries t, x.2.delaysWithin (s.tree t).settings.target

/-! ## Plans, orders, hushed homes, buffers -/

/-- R11, R91, R106: a tree holds at most the records of the round in progress, of the next round, and, once the cut of the
round is made, of the round after it; one record a round. -/
def PlansCurrent (s : State) : Prop :=
  ∀ t : TreeId,
    ((s.tree t).plans.map PlanRecord.round).Nodup ∧
    ∀ r ∈ (s.tree t).plans, r.round = s.round ∨ r.round = s.round + 1 ∨ (s.cutTaken = true ∧ r.round = s.round + 2)

/-- R41: a tree holds at most three window records, one for each round that still has a plan to run. -/
def WindowsCurrent (s : State) : Prop :=
  ∀ t : TreeId,
    ((s.tree t).engine.windows.map WindowRecord.round).Nodup ∧
    ∀ w ∈ (s.tree t).engine.windows, w.round = s.round ∨ w.round = s.round + 1 ∨ (s.cutTaken = true ∧ w.round = s.round + 2)

/-- What the roster always satisfies: canonical stores, and one slot at most for a serial (R17, R34). -/
def RosterSound (s : State) : Prop := StoresCanonical s ∧ SerialsUnique s

/-- Every tag that a plan record, a carried grant, a window record, the engine's answer or the booked PROBE names is a tag of a
slot (R17). -/
def TagsInRange (s : State) : Prop :=
  ∀ t : TreeId,
    (∀ r ∈ (s.tree t).plans, ∀ g ∈ r.grants, tagOk g.tag = true) ∧
    (∀ c ∈ (s.tree t).checker.carried, tagOk c.grant.tag = true) ∧
    (∀ w ∈ (s.tree t).engine.windows, ∀ tag x n, w.kind = .probe tag x n → tagOk tag = true) ∧
    (∀ tag, (s.tree t).engine.chosen = some (.window (.probe tag)) → tagOk tag = true) ∧
    ∀ b ∈ (s.tree t).engine.bookedProbe, tagOk b.2 = true

/-- R65, R31: an entry owes DROP exactly while it is LEAVING, and it then owes nothing else. -/
def DropsAlone (s : State) : Prop :=
  ∀ x ∈ s.roster,
    (x.2.state = .leaving → x.2.owed = { Owed.none with drop := true }) ∧ (x.2.owed.drop = true → x.2.state = .leaving)

/-- R1: the suspicion state of a tree that is not RUNNING is CLEAR. -/
def SuspicionHeld (s : State) : Prop :=
  ∀ t : TreeId, (s.tree t).phase ≠ .running → (s.tree t).light.suspicion = .clear

/-- R140: an entry of a tree not in HUNT holds the hushed mark only while a WAKE to it is owed and not yet sent. -/
def HushedOwesWake (s : State) : Prop :=
  ∀ t : TreeId, s.hunting t = false → ∀ x ∈ s.treeEntries t, x.2.hushed = true → x.2.owed.wake = true

/-- A downstream packet that a buffer may hold (R70, R71). -/
def DownPacket.fits (p : DownPacket) : Bool := tagOk p.tag && 1 ≤ p.payload.length && p.payload.length ≤ maxPacket

/-- R70, R71, R80: no payload buffer holds more than 262,144 bytes, and every downstream packet has a tag 1–128 and 1 to 2,048
bytes. -/
def BuffersWithin (s : State) : Prop :=
  upBytes s.upBuffer ≤ bufferBytes ∧
  (∀ t : TreeId, downBytes (s.tree t).framer.buffer ≤ bufferBytes ∧ ∀ p ∈ (s.tree t).framer.buffer, p.fits = true) ∧
  ∀ p ∈ s.heldPacket, p.packet.fits = true

/-! ## Hunts -/

/-- A hunt of a tree is over (R140): every hushed entry of the tree is woken, the observation list is empty, the result is kept,
and the suspicion state is the one that follows. -/
def huntOver (s : State) (k : TreeId) (after : Suspicion) (reason : HuntReason) (candidate : Option Nat) : State :=
  (s.modTreeEntries k fun _ e => if e.hushed then e.owe .wake else e).setTree k
    { s.tree k with light := { (s.tree k).light with
        suspicion := after, observations := []
        lastHunt := some { reason := reason, round := s.round, tag := candidate } } }

/-- A hunt of a tree is over UNRESOLVED, and ROGUE_UNRESOLVED is raised (R140). -/
def huntUnresolved (s : State) (k : TreeId) (h : Hunt) (reason : HuntReason) (candidate : Option Nat) : State :=
  (huntOver s k .unresolved reason candidate).raise k (.rogueUnresolved k reason h.steps h.started candidate)

/-- A tree whose hunt record is replaced. -/
def huntGoesOn (s : State) (k : TreeId) (h : Hunt) : State :=
  s.setTree k { s.tree k with light := { (s.tree k).light with suspicion := .hunt h } }

/-! ## The light of a window, and the counts of a round -/

/-- Light in its stretches (R47, R54): the bursts of a stretch overlap, each with the light gathered before it, and no two stretches
overlap. -/
def InStretches (groups : List (List Burst)) : Prop :=
  (∀ x ∈ groups, x ≠ [] ∧ ∀ b ∈ x, b.start < b.stop) ∧
  (∀ x ∈ groups, ∀ (front back : List Burst) (b : Burst), x = front ++ b :: back → front ≠ [] →
    ∃ a ∈ front, b.start < a.stop) ∧
  groups.Pairwise fun x y => ∀ a ∈ x, ∀ b ∈ y, a.stop ≤ b.start

/-- The round that ROUND_START begins would take a round count or the granted quanta of a slot with open meters past 4,294,967,295
(R149, R152). -/
def roundSaturates (s : State) (k : TreeId) (tag : Nat) (m : Meters) : Prop :=
  ∃ r : PlanRecord, (s.tree k).plans.find? (fun r => r.round = s.round + 1) = some r ∧
    ((Store.read tag r.marks = some .inService ∧ 4294967295 < m.inService + 1) ∨
      (Store.read tag r.marks = some .hushed ∧ 4294967295 < m.hushed + 1) ∨
      (Store.read tag r.marks = some .fenced ∧ 4294967295 < m.fenced + 1) ∨
      ∃ e : Entry, s.entry k tag = some e ∧ 4294967295 < m.granted +
        ((r.grants.filter fun g => g.tag = tag ∧ g.occupied = e.occupied).map fun g => g.payload).sum)

/-! ## The stages of a build -/

/-- The capacity that a stage spent on a list of candidates, by what it made of them (R96, R102): for each that took payload, the
payload it took, and the overhead where it had none before. -/
def spent (overhead : Nat) (before after : List Cand) : Nat :=
  ((before.zip after).map fun x =>
    if x.2.payload = x.1.payload then 0
    else (x.2.payload - x.1.payload) + (if x.1.payload = 0 then overhead else 0)).sum

/-- A stage walks its candidates in their order and makes of each what a rule gives with the capacity left when the walk reaches
it; it never spends more than it was given, and leaves the rest (R94, R96). -/
def WalksBy (overhead : Nat) (fresh : Cand → Bool) (rule : (left : Nat) → Cand → Cand)
    (stage : Nat → List Cand → List Cand × Nat) : Prop :=
  ∀ (capacity : Nat) (xs : List Cand), (∀ x ∈ xs, fresh x = true) →
    let ys := (stage capacity xs).1
    ys.length = xs.length ∧ spent overhead xs ys ≤ capacity ∧ (stage capacity xs).2 = capacity - spent overhead xs ys ∧
    ∀ (i : Nat) (x : Cand), xs[i]? = some x →
      ys[i]? = some (rule (capacity - spent overhead (xs.take i) (ys.take i)) x)

/-! ## Ranges -/

/-- Every tree setting lies in its range (section 1.5). -/
def Settings.inRange (x : Settings) : Bool :=
  x.target ≤ 131071 && x.nearBound ≤ x.target && 2 ≤ x.overhead && x.overhead ≤ 8 && 1 ≤ x.minBurst && x.minBurst ≤ 64 &&
  16 ≤ x.wCall && x.wCall ≤ 1600 && 1 ≤ x.kCall && x.kCall ≤ 1024 && 4 ≤ x.wDark && x.wDark ≤ 64 &&
  1 ≤ x.kDark && x.kDark ≤ 256 && 1 ≤ x.poll && x.poll ≤ 64 && 1 ≤ x.silence && x.silence ≤ 16 &&
  1 ≤ x.defaultPeak && x.defaultPeak ≤ 1875

/-- A contract in its range (section 2.2). -/
def Contract.inRange (k : Contract) : Bool := contractOk k.c k.p k.w

/-- A change whose tag and values lie in their ranges (R111, R108, R13). -/
def Change.inRange : Change → Bool
  | .contract _ tag v => tagOk tag && v.inRange
  | .treeSetting _ name v => !name.atOnce && settingInRange resetSettings name v
  | .withdraw _ tag => tagOk tag
  | .fence _ tag => tagOk tag
  | .release _ tag => tagOk tag
  | .uncap _ tag => tagOk tag
  | .switchBand _ => true
  | .closeInterval _ => true

/-- A list of tags 1–128 in ascending order without duplicates. -/
def tagsAscending (tags : List Nat) : Bool := tags.all tagOk && tags.Pairwise (fun a b => a < b)

/-- The fields of a hunt record in their ranges (R123). -/
def Hunt.inRange (h : Hunt) : Bool :=
  tagsAscending h.suspects && !h.suspects.isEmpty && h.darkRun ≤ 4 && h.steps ≤ 255 &&
  match h.phase with
  | .search group => tagsAscending group
  | .trial c => tagOk c
  | .allQuiet c quiet => tagOk c && tagsAscending quiet

/-- The registers of a light supervisor in their ranges (R123). -/
def Light.inRange (l : Light) : Bool :=
  l.baseline ≤ 4095 && l.limitValue ≤ 255 && (l.limitScale = 1 || l.limitScale = 4 || l.limitScale = 16 || l.limitScale = 64) &&
  1 ≤ l.m && l.m ≤ 8 && 1 ≤ l.v && l.v ≤ 4 && 1 ≤ l.mOver && l.mOver ≤ 8 && l.observations.length ≤ 8 &&
  l.cadence ≤ 255 && l.strays ≤ maxCount &&
  match l.suspicion with
  | .hunt h => h.inRange
  | _ => true

/-- The registers of a tree in their ranges (section 1.5, R41, R91, R123). -/
def Tree.inRange (x : Tree) : Bool :=
  x.settings.inRange && x.settlingCount ≤ 16 && 1 ≤ x.lead && x.lead ≤ 128 && 16 ≤ x.bookedCall && x.bookedCall ≤ 1600 &&
  4 ≤ x.bookedDark && x.bookedDark ≤ 64 && x.engine.count ≤ 1023 && x.engine.collisions ≤ maxCount && x.light.inRange

/-- The fields of an entry in their ranges (section 2.2). -/
def Entry.inRange (e : Entry) : Bool :=
  e.contract.inRange && e.booked ≤ 1875 &&
  match e.body with
  | .heard f => f.tries ≤ 3
  | .timed f => f.misses ≤ 3
  | .active f => f.missCount ≤ 16 && f.need ≤ 65535 && f.credit ≤ 482048 && f.history.length ≤ 8
  | .silent _ => true
  | .fenced f => f.need ≤ 65535 && f.credit ≤ 482048 && f.history.length ≤ 8
  | .leaving _ => true

/-- Every register of the trees, the roster and the admission list lies in the range the manual gives (section 1.5, section
2.2, R35, R41, R91, R101, R123), and so does every value that waits. -/
def RegistersInRange (s : State) : Prop :=
  (∀ t : TreeId, (s.tree t).inRange = true) ∧ (∀ x ∈ s.roster, x.2.inRange = true) ∧
  (∀ x ∈ s.admissions, x.2.contract.inRange = true) ∧ s.admissions.length ≤ admissionPlaces ∧
  (∀ q ∈ s.queue, q.change.inRange = true) ∧ ∀ p : Port, ∀ h ∈ (s.port p).inProgress, h.change.inRange = true

/-- R107: the booking sum of every tree, with its booked W_call and booked W_dark, is at most 1,875. -/
def BookingWithin (s : State) : Prop :=
  ∀ t : TreeId, s.bookingSum t + (s.tree t).bookedCall + (s.tree t).bookedDark ≤ roundQuanta

/-- R20: the booked commitment of every entry is the greatest of its c and the rates of the CONTRACT changes queued for it. -/
def BookedAsQueued (s : State) : Prop :=
  ∀ (t : TreeId) (tag : Nat) (e : Entry), tagOk tag = true → s.entry t tag = some e →
    e.booked = bookedFor e.contract.c (queuedRates s.queue t tag e.occupied)

/-- No CONTRACT that waits for a VACANT slot of the tree was taken in the round in progress. In fibre time a round has one call or
probe window at most, before its grants, so no tag passes from one home to another after a CONTRACT of the same round; commands in
another order could bring it (log entry 1). -/
def NoFreshClaim (s : State) (t : TreeId) : Prop :=
  ∀ q ∈ s.queue, ∀ (tag : Nat) (v : Contract), q.change = .contract t tag v → s.entry t tag = none →
    laterThan s.round q.roundTaken = true

/-- The counts of a slot's meters in their ranges (R147). -/
def Meters.inRange (m : Meters) : Bool :=
  (m.up.toList ++ m.down.toList ++ m.withheld.toList).all (fun n => n ≤ maxBytes) &&
  m.granted ≤ maxCount && m.inService ≤ maxCount && m.hushed ≤ maxCount && m.fenced ≤ maxCount

/-- Every count of every slot lies in its range, those of usage records included (R147, R149). -/
def MetersInRange (s : State) : Prop :=
  (∀ x ∈ s.meters, x.2.inRange = true) ∧ ∀ r ∈ s.journal.records, r.meters.inRange = true

/-- The plan of one round of one tree (R10, R105): its parts lie one after another from quantum 0 within the 1,875 quanta. -/
def PlanRecord.fits (r : PlanRecord) : Bool :=
  let afterDark := r.dark.getD 0
  let afterWindow := match r.window with
    | some w => w.opening + w.width
    | none => afterDark
  (match r.window with
    | some w => w.opening == afterDark
    | none => true) &&
  contiguous afterWindow r.grants
where
  contiguous (start : Nat) : List Grant → Bool
    | [] => start ≤ roundQuanta
    | g :: rest => g.start == start && contiguous (start + g.length) rest

end Sys2Proof.Machine
end

