-- ==== Sys2Proof/WellFormed.lean ====
section
/-! DEFINITION. Which commands can come to the part: arguments that fit their message fields, whole messages, light that
runs forward, tags a burst or a packet label can name. -/

namespace Sys2Proof

/-- Every argument fits the width its message field has. -/
def Request.wf (r : Request) : Bool :=
  r.fields.all fun f => f.2 < 256 ^ f.1

/-- A message is whole and nothing follows it: its length field counts exactly the bytes after it (R182). -/
def messageWhole : List Byte → Bool
  | hi :: lo :: rest => rest.length == beNat [hi, lo]
  | _ => false

/-- A framed burst runs forward, and where its check code holds it carries a whole burst header. -/
def Burst.wf (b : Burst) : Bool :=
  b.start < b.stop && (!b.checkOk || 16 ≤ b.bytes.length)

/-- A stretch of heard light runs forward. -/
def LightSpan.wf (l : LightSpan) : Bool := l.start < l.stop

/-- Light comes in the order it begins (R47: in the order of arrival). -/
def arrivalOrder : List Burst → Bool
  | [] => true
  | [_] => true
  | a :: b :: rest => a.start ≤ b.start && arrivalOrder (b :: rest)

/-- A tag that a roster slot has (R17). -/
def tagInRange (tag : Nat) : Bool := 1 ≤ tag && tag ≤ 128

/-- The commands that can come to the part. -/
def Instr.wf (i : Instr) : Bool :=
  match i.request? with
  | some (_, _, r) => r.wf
  | none =>
    match i with
    | .requestArrival _ message => messageWhole message
    | .callWindowEnd _ light => light.all Burst.wf && arrivalOrder light
    | .probeWindowEnd _ light => light.all Burst.wf && arrivalOrder light
    | .burstEnd _ _ burst => burst.wf
    | .grantEnd _ _ tag light => tagInRange tag && light.all LightSpan.wf
    | .guardEnd _ _ tag _ _ => tagInRange tag
    | .packetOffered _ tag _ => tag < 256
    | _ => true

end Sys2Proof
end

