-- ==== Sys2Proof/Certificates/Slice0/Obligations.lean ====
section
/-! DEFINITION. The statements for the provers: what the commands and the part do, by the numbered rules of the manual. -/

open Sys2Proof Sys2Proof.Machine

/-! ## The step, reset, and what every command leaves -/

/-- A step takes the command at the front of the queue and answers what `exec` answers for it on the part with the queue's
rest; on an empty queue the block idles, which is the model's choice (log entry 1). -/
def Obligations.StepRunsFrontCommand : Prop :=
  (∀ (s : State) (c : Instr) (rest : List Instr), s.pending = c :: rest → step s = exec c { s with pending := rest }) ∧
  ∀ s : State, s.pending = [] → step s = .next s

/-- POWER_ON_RESET from any state gives the part right after reset, with the values the manual gives after power-on or the
reset line, block by block. That the queue of commands stays as it is, is the model's choice (log entry 1). -/
def Obligations.PowerOnResetValues : Prop :=
  ∀ s : State, ∃ t : State,
    exec .powerOnReset s = .next t ∧ t = { State.reset with pending := s.pending } ∧
    t.round = 0 ∧ t.openMode = false ∧ t.roster = [] ∧ t.admissions = [] ∧ t.queue = [] ∧ t.band = 0 ∧
    t.meters = [] ∧ t.watches = [] ∧ t.journal.records = [] ∧ t.journal.booked = 0 ∧ t.journal.mark = 1536 ∧
    (∀ k : TreeId, t.journal.intervals.get k = 0) ∧ t.upBuffer = [] ∧ t.heldPacket = none ∧
    (∀ k : TreeId,
      (t.tree k).phase = .down ∧
      (t.tree k).settings =
        { target := 80000, nearBound := 0, overhead := 2, minBurst := 4, wCall := 400, kCall := 50, wDark := 16,
          kDark := 32, poll := 8, silence := 4, defaultPeak := 500 } ∧
      (t.tree k).settlingCount = 0 ∧ (t.tree k).bookedCall = 400 ∧ (t.tree k).bookedDark = 16 ∧ (t.tree k).plans = [] ∧
      (t.tree k).lead = 1 ∧ (t.tree k).framer.buffer = [] ∧ (t.tree k).framer.frame = none ∧
      (t.tree k).engine.calls = false ∧ (t.tree k).engine.count = 0 ∧ (t.tree k).engine.deferred = false ∧
      (t.tree k).engine.windows = [] ∧ (t.tree k).engine.collisions = 0 ∧
      (t.tree k).light.baseline = 0 ∧ (t.tree k).light.suspicion = .clear ∧ (t.tree k).light.observations = [] ∧
      (t.tree k).light.limitValue = 32 ∧ (t.tree k).light.limitScale = 4 ∧ (t.tree k).light.m = 3 ∧
      (t.tree k).light.v = 2 ∧ (t.tree k).light.mOver = 3 ∧ (t.tree k).light.cadence = 0 ∧ (t.tree k).light.strays = 0 ∧
      (t.tree k).light.lastDark = none ∧ (t.tree k).light.lastHunt = none) ∧
    (∀ p : Port,
      (t.port p).inProgress = none ∧ (t.port p).waiting = none ∧ (t.port p).stalled = false ∧
      (t.port p).holdLimit = some 500 ∧ (t.port p).notices = [] ∧ (t.port p).threshold = .info ∧
      (t.port p).line = false) ∧
    (t.port .line).allocation = 16 ∧ (t.port .accounting).allocation = 10 ∧ (t.port .supervisor).allocation = 6 ∧
    (∀ kind ∈ [NoticeKind.homeHeard, .homeActive, .enrolFailed, .stranger, .serialClash, .homeSilent, .reachLimit,
      .treeReady, .treeFault], routeOf t.routes kind = .line) ∧
    (∀ kind ∈ [NoticeKind.intervalClosed, .journalHigh, .watchFired], routeOf t.routes kind = .accounting) ∧
    ∀ kind ∈ [NoticeKind.lightSeen, .lightGone, .rogueContained, .rogueUnresolved, .overrunFence],
      routeOf t.routes kind = .supervisor

/-- Every command completes: none stops with a fault or a refusal. None touches the queue of commands, POWER_ON_RESET included:
the queue stands for the outside world, which is the model's choice (log entry 1). -/
def Obligations.EveryCommandCompletes : Prop :=
  ∀ (c : Instr) (s : State), ∃ t : State, exec c s = .next t ∧ t.pending = s.pending

/-! ## Request messages and ports (chapters 11 and 12) -/

/-- A request written as the bytes of its message is read back as that request with its sequence byte, for every request whose
arguments fit their fields. The widths of the fields are as log entry 10 reads them. -/
def Obligations.MessageRoundTrip : Prop :=
  ∀ (q : Byte) (r : Request), r.wf = true → decodeMessage (encodeRequest q r) = some { seq := q, ask := .request r }

/-- The bytes of a request that arrive at a port do what the request's own row does there, and the bytes of a PORT RESET do
what PORT_RESET does: that a request row is the arrival of its whole message is the model's choice (log entry 2), and the
widths of the bytes are as log entry 10 reads them. -/
def Obligations.ArrivingMessageRunsItsRow : Prop :=
  (∀ (s : State) (c : Instr) (p : Port) (q : Byte) (r : Request),
    c.request? = some (p, q, r) → r.wf = true →
      ∃ t : State, exec (.requestArrival p (encodeRequest q r)) s = .next t ∧ exec c s = .next t) ∧
  ∀ (s : State) (p : Port) (q : Byte),
    ∃ t : State, exec (.requestArrival p (encodePortReset q)) s = .next t ∧ exec (.portReset p q) s = .next t

/-- A whole message that is not a request is answered BAD_ARGUMENT at a free port, and nothing else happens: with its own
sequence byte where its name is unknown, its arguments have the wrong size or its length field is above 1,022, and with
sequence byte 0 where its length field is below 2 and it is not a PORT RESET. A request outside the role of its port is
answered NOT_PERMITTED before any of its arguments is looked at, and changes nothing: Line requests have the names 16 to 29,
Accounting requests 32 to 40, Supervisor requests 48 to 54. -/
def Obligations.RequestsNotCarriedOut : Prop :=
  (∀ (s : State) (p : Port), PortFree s p →
     (∀ (name q : Byte) (args : List Byte), name.toNat ≠ 68 → args.length < 65534 →
       (1022 < args.length + 2 ∨ argWidths name.toNat = none ∨
         ∃ widths, argWidths name.toNat = some widths ∧ widths.sum ≠ args.length) →
       exec (.requestArrival p (beBytes 2 (args.length + 2) ++ [name, q] ++ args)) s =
         .next (s.reply p q .badArgument .nothing)) ∧
     exec (.requestArrival p [0, 0]) s = .next (s.reply p 0 .badArgument .nothing) ∧
     ∀ name : Byte, name.toNat ≠ 68 →
       exec (.requestArrival p [0, 1, name]) s = .next (s.reply p 0 .badArgument .nothing)) ∧
  (∀ (s : State) (c : Instr) (p : Port) (q : Byte) (r : Request),
     c.request? = some (p, q, r) → PortFree s p →
     ((16 ≤ r.code ∧ r.code ≤ 29 ∧ p ≠ .line) ∨ (32 ≤ r.code ∧ r.code ≤ 40 ∧ p ≠ .accounting) ∨
       (48 ≤ r.code ∧ r.code ≤ 54 ∧ p ≠ .supervisor)) →
     exec c s = .next (s.reply p q .notPermitted .nothing))

/-- The slots of a port: a request that arrives behind a held one waits in an empty waiting slot, and is answered PORT_BUSY
where that slot is taken too; a waiting request is taken, once the in-progress slot is empty, as it would be taken on arrival;
and with nothing to take WAITING_REQUEST_TAKEN changes nothing, which is the model's choice (log entry 4). PORT RESET, whatever
the slots hold: both requests are discarded unanswered, a held WITHDRAW releases its final place, the notice queue is emptied
and the line withdrawn, hold limit and threshold return to 500 and INFO, and the answer counts what was discarded. Nothing else
of the part changes. -/
def Obligations.PortSlotsAndReset : Prop :=
  (∀ (s : State) (c : Instr) (p : Port) (q : Byte) (r : Request), c.request? = some (p, q, r) →
     (∀ h : Held, (s.port p).inProgress = some h → (s.port p).waiting = none →
       exec c s = .next (s.setPort p { s.port p with waiting := some { seq := q, ask := .request r } })) ∧
     (∀ (h : Held) (a : Arrived), (s.port p).inProgress = some h → (s.port p).waiting = some a →
       exec c s = .next (s.reply p q .portBusy .nothing)) ∧
     ((s.port p).inProgress = none → (s.port p).waiting = some { seq := q, ask := .request r } →
       ∃ t : State, exec (.waitingRequestTaken p) s = .next t ∧
         exec c (s.setPort p { s.port p with waiting := none }) = .next t) ∧
     ((s.port p).inProgress ≠ none ∨ (s.port p).waiting = none → exec (.waitingRequestTaken p) s = .next s)) ∧
  (∀ (s : State) (p : Port) (q : Byte),
     let x := s.port p
     let freed := match x.inProgress with
       | some h => match h.change with
         | .withdraw _ _ => 1
         | _ => 0
       | none => 0
     exec (.portReset p q) s =
       .next (({ s with journal := { s.journal with booked := s.journal.booked - freed } } : State).setPort p
         { x with
           inProgress := none, waiting := none, notices := [], threshold := .info, line := false, holdLimit := some 500,
           sent := x.sent ++
             [{ seq := q, status := .done,
                results := .discarded (x.inProgress.toList.length + x.waiting.toList.length) x.notices.length }] }))

/-- SET ALLOCATIONS sets all three allocations at once where each fits, they sum to at most 32, and every port that shrinks is
stalled and holds no more entries than its new allocation; a value or sum out of range is BAD_ARGUMENT and a port that cannot
shrink yet is ALLOC_BUSY. STALL sets and UNSTALL clears the stall mark of the port 1 Line, 2 Accounting or 3 Supervisor, and
SET HOLD LIMIT sets the hold limit of the port that sends it to OFF (0), 5, 50, 500 or 5,000; any other argument is
BAD_ARGUMENT. Nothing else changes. FETCH NOTICES hands over the oldest entries of the port's queue, up to a count of 1 to 8,
removes them, answers how many are left, and judges the line afresh. SET THRESHOLD sets the threshold of the port that sends it
to INFO (0), WARN (1) or ALARM (2), judges its line afresh and answers the number of entries at or above it. SET ROUTE routes
one of the seventeen kinds to a port and answers the port it was routed to before, whatever is queued staying where it is. Any
other argument is BAD_ARGUMENT. -/
def Obligations.PortAndNoticeRequests : Prop :=
  ((∀ (s : State) (q : Byte) (l a v : Nat), PortFree s .line →
     let mayShrink := fun (p : Port) (n : Nat) =>
       n < (s.port p).allocation →
         (s.port p).stalled = true ∧ (s.queue.filter fun e => e.origin = p).length ≤ n
     (l + a + v ≤ 32 → mayShrink .line l → mayShrink .accounting a → mayShrink .supervisor v →
       exec (.setAllocations .line q l a v) s =
         .next ({ s with ports :=
           { line := { s.port .line with allocation := l }
             accounting := { s.port .accounting with allocation := a }
             supervisor := { s.port .supervisor with allocation := v } } }.reply .line q .done (.allocations l a v))) ∧
     (32 < l + a + v → exec (.setAllocations .line q l a v) s = .next (s.reply .line q .badArgument .nothing)) ∧
     (l + a + v ≤ 32 → ¬ (mayShrink .line l ∧ mayShrink .accounting a ∧ mayShrink .supervisor v) →
       exec (.setAllocations .line q l a v) s = .next (s.reply .line q .allocBusy .nothing))) ∧
   (∀ (s : State) (q : Byte) (n : Nat), PortFree s .line →
     (∀ p : Port, (n, p) ∈ [(1, Port.line), (2, .accounting), (3, .supervisor)] →
       exec (.stall .line q n) s = .next ((s.setPort p { s.port p with stalled := true }).reply .line q .done .nothing) ∧
       exec (.unstall .line q n) s =
         .next ((s.setPort p { s.port p with stalled := false }).reply .line q .done .nothing)) ∧
     (n = 0 ∨ 3 < n →
       exec (.stall .line q n) s = .next (s.reply .line q .badArgument .nothing) ∧
       exec (.unstall .line q n) s = .next (s.reply .line q .badArgument .nothing))) ∧
   ∀ (s : State) (p : Port) (q : Byte) (n : Nat), PortFree s p →
     (∀ l : Option Nat, (n, l) ∈ [(0, none), (5, some 5), (50, some 50), (500, some 500), (5000, some 5000)] →
       exec (.setHoldLimit p q n) s = .next ((s.setPort p { s.port p with holdLimit := l }).reply p q .done .nothing)) ∧
     (n ∉ [0, 5, 50, 500, 5000] → exec (.setHoldLimit p q n) s = .next (s.reply p q .badArgument .nothing))) ∧
  ((∀ (s : State) (p : Port) (q : Byte) (n : Nat), PortFree s p →
     (1 ≤ n → n ≤ 8 →
       exec (.fetchNotices p q n) s =
         .next ((s.setPort p { s.port p with
             notices := (s.port p).notices.drop n
             line := ((s.port p).notices.drop n).any fun e => (s.port p).threshold.rank ≤ e.severity.rank }).reply p q .done
           (.notices ((s.port p).notices.take n) ((s.port p).notices.drop n).length))) ∧
     (n = 0 ∨ 8 < n → exec (.fetchNotices p q n) s = .next (s.reply p q .badArgument .nothing)) ∧
     (∀ v : Severity, (n, v) ∈ [(0, Severity.info), (1, .warn), (2, .alarm)] →
       exec (.setThreshold p q n) s =
         .next ((s.setPort p { s.port p with
             threshold := v
             line := (s.port p).notices.any fun e => v.rank ≤ e.severity.rank }).reply p q .done
           (.atThreshold ((s.port p).notices.filter fun e => v.rank ≤ e.severity.rank).length))) ∧
     (2 < n → exec (.setThreshold p q n) s = .next (s.reply p q .badArgument .nothing))) ∧
   ∀ (s : State) (q : Byte) (k n : Nat), PortFree s .line →
     (∀ (kind : NoticeKind) (p : Port), routableOf k = some kind →
       (n, p) ∈ [(1, Port.line), (2, .accounting), (3, .supervisor)] →
       ∃ t : State,
         exec (.setRoute .line q k n) s = .next (t.reply .line q .done (.routedBefore (routeOf s.routes kind))) ∧
         t = { s with routes := t.routes } ∧
         ((∃ old, (kind, old) ∈ s.routes) → routeOf t.routes kind = p) ∧
         ∀ other : NoticeKind, other ≠ kind → routeOf t.routes other = routeOf s.routes other) ∧
     (k = 0 ∨ 17 < k ∨ n = 0 ∨ 3 < n → exec (.setRoute .line q k n) s = .next (s.reply .line q .badArgument .nothing)))

/-- An occurrence that reaches a port coalesces with the entry of its kind and tree: the count rises to at most 65,535, the
detail is replaced (an APPLIED detail's void counts add up to at most 65,535), and the entry keeps its place, severity and
first-seen round. With no such entry it makes one at the back, with a count of 1 and the round in progress. The line then shows
whether an entry at or above the threshold is queued. -/
def Obligations.NoticeCoalesces : Prop :=
  ∀ (s : State) (p : Port) (k : Option TreeId) (d : Detail),
    (∀ (front back : List NoticeEntry) (e : NoticeEntry),
      (s.port p).notices = front ++ e :: back →
      (∀ x ∈ front, ¬ (x.kind = d.kind ∧ x.tree = k)) → e.kind = d.kind → e.tree = k →
      ∃ d' : Detail,
        ((s.raiseAt p k d).port p).notices = front ++ { e with count := min 65535 (e.count + 1), detail := d' } :: back ∧
        ((∀ c r ok n, d ≠ .applied c r ok n) → d' = d) ∧
        ∀ c r ok n c' r' ok' n', d = .applied c r ok n → e.detail = .applied c' r' ok' n' →
          d' = .applied c r ok (min 65535 (n' + n))) ∧
    ((∀ x ∈ (s.port p).notices, ¬ (x.kind = d.kind ∧ x.tree = k)) →
      ((s.raiseAt p k d).port p).notices =
        (s.port p).notices ++
          [{ kind := d.kind, tree := k, severity := d.kind.severity, count := 1, firstSeen := s.round, detail := d }]) ∧
    (((s.raiseAt p k d).port p).line = true ↔
      ∃ e ∈ ((s.raiseAt p k d).port p).notices, (s.port p).threshold.rank ≤ e.severity.rank) ∧
    ∃ x : PortState, s.raiseAt p k d = s.setPort p { x with
      inProgress := (s.port p).inProgress, waiting := (s.port p).waiting, stalled := (s.port p).stalled,
      holdLimit := (s.port p).holdLimit, allocation := (s.port p).allocation, threshold := (s.port p).threshold,
      sent := (s.port p).sent }

/-! ## Trees (chapter 1) -/

/-- START TREE: a DOWN or FAULTED tree becomes SETTLING with a baseline and a settling count of 0, CLEAR, an empty observation
list, a cadence count of 0 and no last dark level, and a window schedule at its start; FENCE becomes owed on its FENCED
entries, in place of a RELEASE (an entry that owes DROP alone takes none); nothing else of the part changes. What the checker
notes of the round in progress stays, so that its light is not judged where the tree was stopped in it (log entry 15). A
SETTLING or RUNNING tree is WRONG_STATE, another number BAD_ARGUMENT. -/
def Obligations.StartTreeEffect : Prop :=
  ∀ (s : State) (q : Byte) (n : Nat), PortFree s .line →
    (∀ k : TreeId, n = k.val → (s.tree k).phase = .down ∨ (s.tree k).phase = .faulted →
      exec (.startTree .line q n) s =
        .next (({ s with
          trees := s.trees.set k
            { s.tree k with
              phase := .settling, settlingCount := 0
              engine := { (s.tree k).engine with
                count := 0, deferred := false, windows := [], bookedProbe := none, chosen := none }
              light := { (s.tree k).light with
                baseline := 0, suspicion := .clear, observations := [], cadence := 0, darkAnswer := none,
                lastDark := none } }
          roster := s.roster.map fun x =>
            if x.1 / 128 = n ∧ x.2.state = .fenced then
              (x.1, { x.2 with owed :=
                if x.2.owed.drop then x.2.owed else { x.2.owed with fence := true, release := false } })
            else x } : State).reply .line q .done .nothing)) ∧
    (∀ k : TreeId, n = k.val → (s.tree k).phase = .settling ∨ (s.tree k).phase = .running →
      exec (.startTree .line q n) s = .next (s.reply .line q .wrongState .nothing)) ∧
    (4 ≤ n → exec (.startTree .line q n) s = .next (s.reply .line q .badArgument .nothing))

/-- STOP TREE on the blocks of the tree: it becomes DOWN, keeps the plan record of the round in progress alone, ends the frame,
empties the buffer, ends hunt, windows and schedule, and its lead pointer becomes 1, the cadence count 0; the rest of the
round's light is not judged (log entry 15); a packet that waits for it is discarded. Queue, journal, meters, admission, band,
routes and the other trees stay (a packet that waits for another tree is dealt with by that tree). The refusals are WRONG_STATE
for a DOWN tree and BAD_ARGUMENT for another number. STOP TREE on the roster: what each state becomes, that watches of slots
made VACANT become EMPTY and the others stay, that the other trees' entries stay, and the five counts of the answer. -/
def Obligations.StopTreeEffect : Prop :=
  (∀ (s : State) (q : Byte) (n : Nat), PortFree s .line →
     (∀ k : TreeId, n = k.val → (s.tree k).phase ≠ .down →
       ∃ t : State, exec (.stopTree .line q n) s = .next t ∧
         t.tree k =
           { s.tree k with
             phase := .down, lead := 1, plans := (s.tree k).plans.filter fun r => r.round = s.round
             engine := { (s.tree k).engine with
               count := 0, deferred := false, windows := [], bookedProbe := none, chosen := none }
             light := { (s.tree k).light with
               suspicion := .clear, observations := [], cadence := 0, darkAnswer := none }
             framer := { buffer := [], frame := none }
             checker := { (s.tree k).checker with muted := true, marks := [], carried := none, carriedIdle := none } } ∧
         (∀ j : TreeId, j ≠ k → (∀ o ∈ s.heldPacket, o.tree ≠ j) → t.tree j = s.tree j) ∧
         (∀ o ∈ s.heldPacket, o.tree = k → t.heldPacket = none) ∧
         t.round = s.round ∧ t.queue = s.queue ∧ t.journal = s.journal ∧ t.meters = s.meters ∧
         t.admissions = s.admissions ∧ t.openMode = s.openMode ∧ t.band = s.band ∧ t.routes = s.routes ∧
         t.upBuffer = s.upBuffer ∧
         ∀ p : Port, { t.port p with sent := (s.port p).sent } = s.port p) ∧
     (∀ k : TreeId, n = k.val → (s.tree k).phase = .down →
       exec (.stopTree .line q n) s = .next (s.reply .line q .wrongState .nothing)) ∧
     (4 ≤ n → exec (.stopTree .line q n) s = .next (s.reply .line q .badArgument .nothing))) ∧
  (∀ (s : State) (q : Byte) (k : TreeId), PortFree s .line → StoresCanonical s → (s.tree k).phase ≠ .down →
     ∃ t : State, exec (.stopTree .line q k.val) s = .next t ∧
       (∀ (tag : Nat) (e : Entry), tagOk tag = true → s.entry k tag = some e →
         t.entry k tag =
           match e.body with
           | .heard f => f.keptDelay.map fun d =>
               { e with owed := Owed.none, body := .silent { e := d, hushed := false } }
           | .timed f => f.former.map fun d =>
               { e with owed := Owed.none, body := .silent { e := d, hushed := false } }
           | .active f => some { e with owed := Owed.none, body := .silent { e := f.e, hushed := false } }
           | .silent f => some { e with owed := Owed.none, body := .silent { e := f.e, hushed := false } }
           | .fenced f =>
             if f.trial then some { e with owed := Owed.none, body := .silent { e := f.e, hushed := false } }
             else some { e with owed := Owed.none
                                body := .fenced { f with need := 0, credit := 0, history := [], hushed := false } }
           | .leaving _ => none) ∧
       (∀ tag : Nat, tagOk tag = true → s.entry k tag = none → t.entry k tag = none) ∧
       (∀ (j : TreeId) (tag : Nat), j ≠ k → tagOk tag = true → t.entry j tag = s.entry j tag) ∧
       (∀ (n : Nat) (w : Watch), Store.read n s.watches = some w → tagOk w.tag = true →
         Store.read n t.watches = if w.tree = k ∧ t.entry k w.tag = none then none else some w) ∧
       ∃ hunt : Bool,
         (hunt = true ↔ ∃ h, (s.tree k).light.suspicion = .hunt h) ∧
         (t.port .line).sent = (s.port .line).sent ++
           [{ seq := q, status := .done
              results := .stopped
               ((List.range' 1 128).countP fun tag => (s.entry k tag).isSome && (t.entry k tag).isNone)
               ((List.range' 1 128).countP fun tag =>
                 s.slotState k tag ≠ .silent && s.slotState k tag ≠ .vacant && t.slotState k tag = .silent)
               ((List.range' 1 128).countP fun tag => t.slotState k tag = .fenced)
               hunt
               (min 65535 (s.tree k).framer.buffer.length) }])

/-- SET TREE of T (1), N (2) and H (3) on a DOWN tree is carried out at once: a T from N to 131,071 is put in force and every
delay of the tree's entries is clamped to it, a kept and a former delay included; an N up to T is put in force and changes no
entry; an H of 2 to 8 that the booking admits is put in force, and one it does not admit is OVERBOOK. A tree that is not DOWN
is WRONG_STATE, a value out of range BAD_ARGUMENT. Nothing else changes. SET TREE of the other settings (codes 4 to 11) with a
value in range enters the queue of an open Line port and is answered STAGED, or is held at a stalled or full one; a new W_call
or W_dark that the booking admits becomes the booked value as it enters, and one it does not admit is OVERBOOK. A code SET TREE
does not carry, a tree number above 3 and a value out of range are BAD_ARGUMENT. Nothing else changes. -/
def Obligations.SetTreeEffect : Prop :=
  (∀ (s : State) (q : Byte) (k : TreeId) (v : Nat), PortFree s .line →
     ((s.tree k).phase = .down →
       ((s.tree k).settings.nearBound ≤ v → v ≤ 131071 →
         ∃ t : State, exec (.setTree .line q k.val 1 v) s = .next (t.reply .line q .done .nothing) ∧
           t = { s with roster := t.roster
                        trees := s.trees.set k { s.tree k with settings := { (s.tree k).settings with target := v } } } ∧
           (∀ (tag : Nat) (e : Entry), tagOk tag = true → s.entry k tag = some e →
             let becomes := fun (b : Body) => t.entry k tag = some { e with body := b }
             (∀ f : Heard, e.body = .heard f → becomes (.heard { f with keptDelay := f.keptDelay.map (min v) })) ∧
             (∀ f : Timed, e.body = .timed f →
               becomes (.timed { f with e := min v f.e, former := f.former.map (min v) })) ∧
             (∀ f : Active, e.body = .active f → becomes (.active { f with e := min v f.e })) ∧
             (∀ f : Silent, e.body = .silent f → becomes (.silent { f with e := min v f.e })) ∧
             (∀ f : Fenced, e.body = .fenced f → becomes (.fenced { f with e := min v f.e })) ∧
             ∀ d : Option Nat, e.body = .leaving d → becomes (.leaving (d.map (min v)))) ∧
           ∀ (j : TreeId) (tag : Nat), tagOk tag = true → j ≠ k ∨ s.entry j tag = none →
             t.entry j tag = s.entry j tag) ∧
       (v ≤ (s.tree k).settings.target →
         (s.tree k).settings.target ≤ 131071 →
         exec (.setTree .line q k.val 2 v) s =
           .next ((s.setTree k { s.tree k with settings := { (s.tree k).settings with nearBound := v } }).reply
             .line q .done .nothing)) ∧
       (2 ≤ v → v ≤ 8 →
         exec (.setTree .line q k.val 3 v) s =
           if s.bookingWith k v + (s.tree k).bookedCall + (s.tree k).bookedDark ≤ 1875 then
             .next ((s.setTree k { s.tree k with settings := { (s.tree k).settings with overhead := v } }).reply
               .line q .done .nothing)
           else .next (s.reply .line q .overbook .nothing))) ∧
     ((s.tree k).phase ≠ .down →
       ((s.tree k).settings.nearBound ≤ v → v ≤ 131071 →
         exec (.setTree .line q k.val 1 v) s = .next (s.reply .line q .wrongState .nothing)) ∧
       (v ≤ (s.tree k).settings.target →
         exec (.setTree .line q k.val 2 v) s = .next (s.reply .line q .wrongState .nothing)) ∧
       (2 ≤ v → v ≤ 8 → exec (.setTree .line q k.val 3 v) s = .next (s.reply .line q .wrongState .nothing))) ∧
     (v < (s.tree k).settings.nearBound ∨ 131071 < v →
       exec (.setTree .line q k.val 1 v) s = .next (s.reply .line q .badArgument .nothing)) ∧
     ((s.tree k).settings.target < v →
       exec (.setTree .line q k.val 2 v) s = .next (s.reply .line q .badArgument .nothing)) ∧
     (v < 2 ∨ 8 < v → exec (.setTree .line q k.val 3 v) s = .next (s.reply .line q .badArgument .nothing))) ∧
  (∀ (s : State) (q : Byte) (k : TreeId) (v : Nat), PortFree s .line →
     (QueueOpen s .line →
       (∀ (code lo hi : Nat) (name : SettingName),
         (code, name, lo, hi) ∈ [(4, SettingName.minBurst, 1, 64), (6, .kCall, 1, 1024), (8, .kDark, 1, 256),
           (9, .poll, 1, 64), (10, .silence, 1, 16), (11, .defaultPeak, 1, 1875)] → lo ≤ v → v ≤ hi →
         exec (.setTree .line q k.val code v) s =
           .next ({ s with queue := queueWith s .line (.treeSetting k name v) }.reply .line q .staged .nothing)) ∧
       (16 ≤ v → v ≤ 1600 →
         exec (.setTree .line q k.val 5 v) s =
           if s.bookingSum k + v + (s.tree k).bookedDark ≤ 1875 then
             .next (({ s with queue := queueWith s .line (.treeSetting k .wCall v) }.setTree k
               { s.tree k with bookedCall := v }).reply .line q .staged .nothing)
           else .next (s.reply .line q .overbook .nothing)) ∧
       (4 ≤ v → v ≤ 64 →
         exec (.setTree .line q k.val 7 v) s =
           if s.bookingSum k + (s.tree k).bookedCall + v ≤ 1875 then
             .next (({ s with queue := queueWith s .line (.treeSetting k .wDark v) }.setTree k
               { s.tree k with bookedDark := v }).reply .line q .staged .nothing)
           else .next (s.reply .line q .overbook .nothing))) ∧
     (¬ QueueOpen s .line →
       (∀ (code lo hi : Nat) (name : SettingName),
         (code, name, lo, hi) ∈ [(4, SettingName.minBurst, 1, 64), (6, .kCall, 1, 1024), (8, .kDark, 1, 256),
           (9, .poll, 1, 64), (10, .silence, 1, 16), (11, .defaultPeak, 1, 1875)] → lo ≤ v → v ≤ hi →
         exec (.setTree .line q k.val code v) s = .next (heldWith s .line q (.treeSetting k name v))) ∧
       (16 ≤ v → v ≤ 1600 →
         exec (.setTree .line q k.val 5 v) s =
           if s.bookingSum k + v + (s.tree k).bookedDark ≤ 1875 then .next (heldWith s .line q (.treeSetting k .wCall v))
           else .next (s.reply .line q .overbook .nothing)) ∧
       (4 ≤ v → v ≤ 64 →
         exec (.setTree .line q k.val 7 v) s =
           if s.bookingSum k + (s.tree k).bookedCall + v ≤ 1875 then .next (heldWith s .line q (.treeSetting k .wDark v))
           else .next (s.reply .line q .overbook .nothing))) ∧
     (∀ code lo hi : Nat,
       (code, lo, hi) ∈ [(4, 1, 64), (5, 16, 1600), (6, 1, 1024), (7, 4, 64), (8, 1, 256), (9, 1, 64), (10, 1, 16),
         (11, 1, 1875)] → v < lo ∨ hi < v →
       exec (.setTree .line q k.val code v) s = .next (s.reply .line q .badArgument .nothing)) ∧
     ∀ n code : Nat, 4 ≤ n ∨ code = 0 ∨ 11 < code →
       exec (.setTree .line q n code v) s = .next (s.reply .line q .badArgument .nothing))

/-- READ TREE answers the tree as it stands and changes nothing: the round number, the tree state, the settling count, every
setting in force, the booked widths, the booking sum, the calls setting, the collision count, the numbers of entries in each of
the seven roster states, VACANT first (log entry 18), the lead pointer and the fill of the buffer in bytes. Another tree number
is BAD_ARGUMENT. READ METERS answers the slot as it stands, VACANT included, and changes nothing: the round, the band, the
entry's state with its serial and occupied round, the meters where they are open, the capped mark, and every watch that names
the slot. A tree or tag out of range is BAD_ARGUMENT. -/
def Obligations.ReadTreeAndMetersAnswer : Prop :=
  (∀ (s : State) (q : Byte), PortFree s .line →
     (∀ k : TreeId,
       exec (.readTree .line q k.val) s =
         .next (s.reply .line q .done (.treeReading
           { round := s.round, phase := (s.tree k).phase, settlingCount := (s.tree k).settlingCount
             settings := (s.tree k).settings
             limitValue := (s.tree k).light.limitValue, limitScale := (s.tree k).light.limitScale
             m := (s.tree k).light.m, v := (s.tree k).light.v, mOver := (s.tree k).light.mOver
             bookedCall := (s.tree k).bookedCall, bookedDark := (s.tree k).bookedDark
             bookingSum := ((s.treeEntries k).map fun x =>
               if 0 < x.2.booked then x.2.booked + (s.tree k).settings.overhead else 0).sum
             calls := (s.tree k).engine.calls, collisions := (s.tree k).engine.collisions
             counts := (128 - (s.treeEntries k).length) ::
               [EntryState.heard, .timed, .active, .silent, .fenced, .leaving].map fun st =>
                 ((s.treeEntries k).filter fun x => x.2.state = st).length
             lead := (s.tree k).lead
             fill := ((s.tree k).framer.buffer.map fun p => p.payload.length).sum }))) ∧
     ∀ n : Nat, 4 ≤ n → exec (.readTree .line q n) s = .next (s.reply .line q .badArgument .nothing)) ∧
  (∀ (s : State) (q : Byte), PortFree s .accounting →
     (∀ (k : TreeId) (tag : Nat), 1 ≤ tag → tag ≤ 128 →
       ∃ r : MeterReading,
         exec (.readMeters .accounting q k.val tag) s = .next (s.reply .accounting q .done (.meterReading r)) ∧
         r.round = s.round ∧ r.band = s.band ∧ r.meters = s.meterOf k tag ∧
         (s.entry k tag = none → r.state = .vacant ∧ r.occupant = none ∧ r.capped = false) ∧
         (∀ e : Entry, s.entry k tag = some e →
           r.state = e.state ∧ r.occupant = some (e.serial, e.occupied) ∧ r.capped = e.capped) ∧
         ∀ x : Nat × Watch, x ∈ r.watches ↔ x ∈ s.watches ∧ x.2.tree = k ∧ x.2.tag = tag) ∧
     ∀ n tag : Nat, 4 ≤ n ∨ tag = 0 ∨ 128 < tag →
       exec (.readMeters .accounting q n tag) s = .next (s.reply .accounting q .badArgument .nothing))

/-- READ ROSTER, from any port, answers one result for each slot from the first tag onward, the entry with every field it has
in its state, and changes nothing. A tree, first tag or count out of range, or a reach past tag 128, is BAD_ARGUMENT. -/
def Obligations.ReadRosterAnswer : Prop :=
  ∀ (s : State) (p : Port) (q : Byte), PortFree s p →
    (∀ (k : TreeId) (first count : Nat), 1 ≤ first → 1 ≤ count → count ≤ 8 → first + count ≤ 129 →
      ∃ slots : List (Nat × Option Entry),
        exec (.readRoster p q k.val first count) s = .next (s.reply p q .done (.roster slots)) ∧
        slots.length = count ∧ ∀ i : Nat, i < count → slots[i]? = some (first + i, s.entry k (first + i))) ∧
    ∀ n first count : Nat, 4 ≤ n ∨ first = 0 ∨ count = 0 ∨ 8 < count ∨ 129 < first + count →
      exec (.readRoster p q n first count) s = .next (s.reply p q .badArgument .nothing)

/-- READ LIGHT answers the light supervisor as it stands, with the effective limit, the smaller of 4,095 and the baseline plus
value × scale, and changes nothing. Another tree number is BAD_ARGUMENT. -/
def Obligations.ReadLightAnswer : Prop :=
  ∀ (s : State) (q : Byte), PortFree s .supervisor →
    (∀ k : TreeId,
      exec (.readLight .supervisor q k.val) s =
        .next (s.reply .supervisor q .done (.lightReading
          { baseline := (s.tree k).light.baseline
            limitValue := (s.tree k).light.limitValue, limitScale := (s.tree k).light.limitScale
            effectiveLimit := min 4095
              ((s.tree k).light.baseline + (s.tree k).light.limitValue * (s.tree k).light.limitScale)
            m := (s.tree k).light.m, v := (s.tree k).light.v, mOver := (s.tree k).light.mOver
            suspicion := (s.tree k).light.suspicion, observations := (s.tree k).light.observations
            cadence := (s.tree k).light.cadence, kDark := (s.tree k).settings.kDark
            strays := (s.tree k).light.strays, lastDark := (s.tree k).light.lastDark
            lastHunt := (s.tree k).light.lastHunt }))) ∧
    ∀ n : Nat, 4 ≤ n → exec (.readLight .supervisor q n) s = .next (s.reply .supervisor q .badArgument .nothing)

/-- The baseline (R4): a settling window raises the baseline to its level; at the sixteenth, a baseline above 2,048 makes the
tree FAULTED, discards the plans of rounds not yet begun, empties the downstream buffer and raises TREE_FAULT, and any other
makes it RUNNING, CLEAR, and raises TREE_READY. A packet that waits at the interface for the tree that faulted is discarded;
one that waits for another tree, which has no room for it, waits on. The rest of the round is not judged on a FAULTED tree (log
entry 15). -/
def Obligations.BaselineJudged : Prop :=
  ∀ (s : State) (k : TreeId) (samples : List Sample) (r : PlanRecord) (width : Nat),
    (s.tree k).phase = .settling → (s.tree k).record s.round = some r → r.dark = some width →
    (s.tree k).checker.muted = false → (s.tree k).checker.darkTaken = false → (s.tree k).checker.carried = none →
    let x := s.tree k
    let base := max x.light.baseline (levelOver 0 (32 * width) samples)
    let seen := s.setTree k { x with light := { x.light with baseline := base }
                                     checker := { x.checker with darkTaken := true } }
    (1 ≤ r.settlingNo → r.settlingNo < 16 → exec (.darkWindowEnd k samples) s = .next seen) ∧
    (r.settlingNo = 16 → base ≤ 2048 →
      exec (.darkWindowEnd k samples) s =
        .next ((seen.setTree k { seen.tree k with
            phase := .running, light := { (seen.tree k).light with suspicion := .clear } }).raise k
          (.treeReady k base))) ∧
    (r.settlingNo = 16 → 2048 < base →
      let faulted := (seen.setTree k { seen.tree k with
          phase := .faulted, plans := x.plans.filter fun y => y.round = s.round
          framer := { x.framer with buffer := [] }
          checker := { x.checker with
            muted := true, marks := [], carriedIdle := none, darkTaken := true } }).raise k (.treeFault k base)
      (s.heldPacket = none → exec (.darkWindowEnd k samples) s = .next faulted) ∧
      ∀ o : OfferedPacket, s.heldPacket = some o →
        (o.tree = k → exec (.darkWindowEnd k samples) s = .next { faulted with heldPacket := none }) ∧
        (o.tree ≠ k → (s.tree o.tree).phase = .settling ∨ (s.tree o.tree).phase = .running →
          262144 < ((s.tree o.tree).framer.buffer.map fun p => p.payload.length).sum + o.packet.payload.length →
          exec (.darkWindowEnd k samples) s = .next faulted))

/-! ## Admission and enrolment (chapters 2 and 3) -/

/-- ADMIT keeps one record a serial, in a list of at most 256: a new record replaces the serial's old one, or is added where
the list is not full; the answer says how many are held and whether one was replaced. A tree, c, p or w out of range is
BAD_ARGUMENT before the list is looked at, and a full list is LIST_FULL. STRIKE removes the serial's record, or is
NO_SUCH_HOME. Neither changes anything else, the roster included. SET ADMISSION MODE sets the one mode to LISTED (0) or OPEN
(1), and CALLS ON and CALLS OFF set the calls setting of a tree in any state; each is answered DONE, an argument out of range
BAD_ARGUMENT, and nothing else changes. -/
def Obligations.AdmissionRequests : Prop :=
  (∀ (s : State) (q : Byte) (serial : Serial), PortFree s .line →
     (∀ (n c p w : Nat) (tree : Option TreeId), (n = 255 ∧ tree = none ∨ ∃ k : TreeId, n = k.val ∧ tree = some k) →
       c ≤ 1875 → c ≤ p → 1 ≤ p → p ≤ 1875 → 1 ≤ w → w ≤ 255 →
       let list := Store.write serial.toNat
         { serial := serial, tree := tree, contract := { c := c, p := p, w := w } } s.admissions
       (∀ r : Admission, Store.read serial.toNat s.admissions = some r →
         exec (.admitHome .line q serial n c p w) s =
           .next ({ s with admissions := list }.reply .line q .done (.admitted list.length true))) ∧
       (Store.read serial.toNat s.admissions = none → s.admissions.length < 256 →
         exec (.admitHome .line q serial n c p w) s =
           .next ({ s with admissions := list }.reply .line q .done (.admitted list.length false))) ∧
       (Store.read serial.toNat s.admissions = none → 256 ≤ s.admissions.length →
         exec (.admitHome .line q serial n c p w) s = .next (s.reply .line q .listFull .nothing))) ∧
     (∀ n c p w : Nat, (4 ≤ n ∧ n ≠ 255) ∨ 1875 < c ∨ p < c ∨ p = 0 ∨ 1875 < p ∨ w = 0 ∨ 255 < w →
       exec (.admitHome .line q serial n c p w) s = .next (s.reply .line q .badArgument .nothing)) ∧
     (∀ r : Admission, Store.read serial.toNat s.admissions = some r →
       exec (.strike .line q serial) s =
         .next ({ s with admissions := Store.erase serial.toNat s.admissions }.reply .line q .done
           (.struck (Store.erase serial.toNat s.admissions).length))) ∧
     (Store.read serial.toNat s.admissions = none →
       exec (.strike .line q serial) s = .next (s.reply .line q .noSuchHome .nothing))) ∧
  (∀ (s : State) (q : Byte) (n : Nat), PortFree s .line →
     exec (.setAdmissionMode .line q 0) s = .next ({ s with openMode := false }.reply .line q .done .nothing) ∧
     exec (.setAdmissionMode .line q 1) s = .next ({ s with openMode := true }.reply .line q .done .nothing) ∧
     (2 ≤ n → exec (.setAdmissionMode .line q n) s = .next (s.reply .line q .badArgument .nothing)) ∧
     (∀ k : TreeId, n = k.val →
       exec (.callsOn .line q n) s =
         .next ((s.setTree k { s.tree k with engine := { (s.tree k).engine with calls := true } }).reply
           .line q .done .nothing) ∧
       exec (.callsOff .line q n) s =
         .next ((s.setTree k { s.tree k with engine := { (s.tree k).engine with calls := false } }).reply
           .line q .done .nothing)) ∧
     (4 ≤ n →
       exec (.callsOn .line q n) s = .next (s.reply .line q .badArgument .nothing) ∧
       exec (.callsOff .line q n) s = .next (s.reply .line q .badArgument .nothing)))

/-- A call window with one clean announcement in it. A serial the roster does not hold is a STRANGER where admission refuses
it, ENROL_FAILED with TREE_FULL where the tree has no VACANT tag, and else takes the lowest VACANT tag as a new HEARD entry
with its admitted contract, c cut to 0 where its commitment would not fit the booking. A serial of a SILENT entry of the tree
re-enrols in place and keeps its delay, tag and contract; a serial held anywhere else is SERIAL_CLASH. The window's record is
released. A call window with any light: each stretch of light in it that is not one clean announcement (bursts that overlap, a
failed check code, another type, light past an edge) adds 1 to the collision count, at most 4,294,967,295; the first eight
clean announcements are acted on in order of arrival, each on what those before it left, as one alone is; a ninth is discarded
uncounted; then the record of this window is released, and those of other rounds stay. (Bursts that overlap one after another
are one stretch: log entry 7. Without a window nothing happens: log entry 4.) -/
def Obligations.AnnouncementJudged : Prop :=
  (∀ (s : State) (k : TreeId) (w : WindowRecord) (b : Burst),
     RosterSound s → (s.tree k).engine.windows = [w] → w.round = s.round → w.kind = .call →
     32 * (w.opening : Int) ≤ b.start → b.start < b.stop → b.stop ≤ 32 * ((w.opening : Int) + w.width) →
     b.checkOk = true → b.type = 2 → (s.tree k).engine.collisions ≤ 4294967295 →
     let heard := s.setTree k { s.tree k with engine := { (s.tree k).engine with windows := [] } }
     let gives := fun (t : State) => exec (.callWindowEnd k [b]) s = .next t
     ((∀ (j : TreeId) (tag : Nat) (e : Entry), tagOk tag = true → s.entry j tag = some e → e.serial ≠ b.serial) →
       (∀ c : Option Contract,
         (c = match Store.read b.serial.toNat s.admissions with
           | some r => if r.tree = none ∨ r.tree = some k then some r.contract else none
           | none => if s.openMode then some { c := 0, p := (s.tree k).settings.defaultPeak, w := 1 } else none) →
         (c = none → gives (heard.raise k (.stranger b.serial b.token k))) ∧
         ∀ v : Contract, c = some v →
           ((∀ tag : Nat, tagOk tag = true → (s.entry k tag).isSome) →
             gives (heard.raise k (.enrolFailed k 0 b.serial .treeFull (some b.token) none false))) ∧
           ∀ tag : Nat, tagOk tag = true → s.entry k tag = none →
             (∀ tag' : Nat, tagOk tag' = true → tag' < tag → (s.entry k tag').isSome) →
             let cut : Bool := 0 < v.c ∧ 1875 < s.bookingSum k + (v.c + (s.tree k).settings.overhead) +
               (s.tree k).bookedCall + (s.tree k).bookedDark
             let given : Contract := if cut then { v with c := 0 } else v
             gives ((heard.setEntry k tag
               { serial := b.serial, occupied := s.round, contract := given, booked := given.c, capped := false,
                 owed := Owed.none, body := .heard { heardRound := s.round, tries := 0, keptDelay := none } }).raise k
               (.homeHeard k tag b.serial b.token false cut))) ∧
     (∀ (j : TreeId) (tag : Nat) (e : Entry), tagOk tag = true → s.entry j tag = some e → e.serial = b.serial →
       (∀ f : Silent, j = k → e.body = .silent f →
         gives ((heard.setEntry k tag
           { e with owed := Owed.none
                    body := .heard { heardRound := s.round, tries := 0, keptDelay := some f.e } }).raise k
           (.homeHeard k tag b.serial b.token true false))) ∧
       (j ≠ k ∨ e.state ≠ .silent →
         gives (heard.raise k (.serialClash b.serial b.token k j tag e.state)))))) ∧
  ∀ (s : State) (k : TreeId) (light : List Burst),
    ((∀ w ∈ (s.tree k).engine.windows, ¬ (w.round = s.round ∧ w.kind = .call)) →
      exec (.callWindowEnd k light) s = .next s) ∧
    ∀ (w : WindowRecord) (groups : List (List Burst)),
      w ∈ (s.tree k).engine.windows → w.round = s.round → w.kind = .call →
      (∀ x ∈ (s.tree k).engine.windows, x.round = s.round → x = w) → InStretches groups → light = groups.flatten →
      let found := groups.filter fun x => x.any fun b =>
        b.start < 32 * ((w.opening : Int) + w.width) ∧ 32 * (w.opening : Int) < b.stop
      let clean := found.filterMap fun x => match x with
        | [b] =>
          if 32 * (w.opening : Int) ≤ b.start ∧ b.stop ≤ 32 * ((w.opening : Int) + w.width) ∧ b.checkOk = true ∧ b.type = 2
          then some b else none
        | _ => none
      let counted := s.setTree k { s.tree k with engine := { (s.tree k).engine with
        collisions := min 4294967295 ((s.tree k).engine.collisions + (found.length - clean.length)) } }
      let heard := (clean.take 8).foldl (fun u b => u.announce k b.serial b.token) counted
      exec (.callWindowEnd k light) s = .next (heard.setTree k { heard.tree k with engine := { (heard.tree k).engine with
        windows := (heard.tree k).engine.windows.filter fun x => x.round ≠ s.round } })

/-- A probe window. An echo is one burst of type 3 with the probed serial, clean, wholly in the window and overlapping no other
light; every other stretch of light in the window (bursts that overlap, a failed check code, another type or serial, light past
an edge) adds 1 to the collision count, at most 4,294,967,295. Where the probed occupant is still HEARD, an echo at lag λ gives
the round trip N + λ: up to T the entry becomes TIMED with e = T − (N + λ) and owes ASSIGN, and above T it fails with
OUT_OF_REACH; without an echo its tries rise, and the third fails it with NO_ECHO. A failed entry becomes VACANT, or SILENT
with its kept delay. For a VACANT slot, a later occupant or another state nothing more happens. Then the record of this window
is released, and those of other rounds stay. (Bursts that overlap one after another are one stretch: log entry 7. Of two echoes
the first counts: log entry 20. Without a probe window nothing happens: log entry 4.) -/
def Obligations.ProbeJudged : Prop :=
  ∀ (s : State) (k : TreeId) (light : List Burst), StoresCanonical s →
    ((∀ w ∈ (s.tree k).engine.windows, w.round = s.round → w.kind = .call) → exec (.probeWindowEnd k light) s = .next s) ∧
    ∀ (w : WindowRecord) (groups : List (List Burst)) (tag : Nat) (serial : Serial) (occupied : Round),
      w ∈ (s.tree k).engine.windows → w.round = s.round → w.kind = .probe tag serial occupied →
      (∀ x ∈ (s.tree k).engine.windows, x.round = s.round → x = w) → InStretches groups → light = groups.flatten →
      let found := groups.filter fun x => x.any fun b =>
        b.start < 32 * ((w.opening : Int) + w.width) ∧ 32 * (w.opening : Int) < b.stop
      let echoes := found.filterMap fun x => match x with
        | [b] =>
          if 32 * (w.opening : Int) ≤ b.start ∧ b.stop ≤ 32 * ((w.opening : Int) + w.width) ∧ b.checkOk = true ∧
            b.type = 3 ∧ b.serial = serial
          then some b else none
        | _ => none
      let counted := s.setTree k { s.tree k with engine := { (s.tree k).engine with
        collisions := min 4294967295 ((s.tree k).engine.collisions + (found.length - (if echoes = [] then 0 else 1))) } }
      let gives := fun (t : State) => exec (.probeWindowEnd k light) s =
        .next (t.setTree k { t.tree k with engine := { (t.tree k).engine with
          windows := (t.tree k).engine.windows.filter fun x => x.round ≠ s.round } })
      ((∀ e : Entry, s.entry k tag = some e → e.occupied ≠ occupied ∨ e.state ≠ .heard) → gives counted) ∧
      ∀ (e : Entry) (f : Heard),
        s.entry k tag = some e → e.occupied = occupied → e.body = .heard f → e.owed.drop = false →
        let failed := fun (reason : FailReason) (trip : Option Nat) =>
          match f.keptDelay with
          | none => (counted.vacate k tag).raise k (.enrolFailed k tag e.serial reason none trip false)
          | some d =>
            (counted.setEntry k tag { e with owed := Owed.none, body := .silent { e := d, hushed := false } }).raise k
              (.enrolFailed k tag e.serial reason none trip true)
        (∀ (b : Burst) (others : List Burst) (lag : Nat), echoes = b :: others → b.start = 32 * (w.opening : Int) + lag →
          let trip := (s.tree k).settings.nearBound + lag
          (trip ≤ (s.tree k).settings.target →
            gives (counted.setEntry k tag { e with
              owed := { e.owed with assign := true }
              body := .timed { e := (s.tree k).settings.target - trip, former := f.keptDelay, misses := 0
                               hushed := false } })) ∧
          ((s.tree k).settings.target < trip → gives (failed .outOfReach (some trip)))) ∧
        (echoes = [] → f.tries < 2 →
          gives (counted.setEntry k tag { e with body := .heard { f with tries := f.tries + 1 } })) ∧
        (echoes = [] → 2 ≤ f.tries → gives (failed .noEcho none))

/-! ## Orders and the downstream frame (chapter 4) -/

/-- Making an order owed: HUSH and WAKE remove each other, FENCE and RELEASE each other, DROP every other order; every other
order of the set stays; and while DROP is owed nothing is added. An order that counts as sent leaves the owed set of the entry
it addresses and no more, but that a DROP makes a LEAVING entry VACANT and its watches EMPTY. A HUSH or WAKE list leaves the
owed set of every entry it names, however many, and a WAKE list clears the hushed mark of each. Every other slot keeps its
entry and its watches, and nothing else changes. A slot made VACANT by any rule loses its entry and its watches, and nothing
else. -/
def Obligations.OrdersOwedAndSent : Prop :=
  (∀ (o : Owed) (k j : OrderKind),
     (o.drop = true → o.add k = o) ∧
     (o.drop = false →
       (o.add k).has k = true ∧
       (k = .drop → j ≠ .drop → (o.add k).has j = false) ∧
       ((k, j) ∈ [(OrderKind.hush, OrderKind.wake), (.wake, .hush), (.fence, .release), (.release, .fence)] →
         (o.add k).has j = false) ∧
       (k ≠ .drop → j ≠ k →
         (k, j) ∉ [(OrderKind.hush, OrderKind.wake), (.wake, .hush), (.fence, .release), (.release, .fence)] →
         (o.add k).has j = o.has j))) ∧
  (∀ (s : State) (k : TreeId) (tag : Nat) (e : Entry), tagOk tag = true → s.entry k tag = some e →
     (∀ (o : OrderPlace) (t : State), t = s.sendOrder k o →
       (∃ e0 : Nat, ∃ x : Serial, o = .fence x tag ∨ o = .release tag ∨ o = .assign x tag e0 ∨ o = .probe x tag ∨
         o = .adjust tag e0 ∨ e.state ≠ .leaving ∧ o = .drop x tag) →
       t = { s with roster := t.roster } ∧
       ∀ (j : TreeId) (tag' : Nat), tagOk tag' = true → j ≠ k ∨ tag' ≠ tag → t.entry j tag' = s.entry j tag') ∧
     (∀ x : Serial, (s.sendOrder k (.fence x tag)).entry k tag = some { e with owed := { e.owed with fence := false } }) ∧
     (s.sendOrder k (.release tag)).entry k tag = some { e with owed := { e.owed with release := false } } ∧
     (∀ (x : Serial) (d : Nat),
       (s.sendOrder k (.assign x tag d)).entry k tag = some { e with owed := { e.owed with assign := false } }) ∧
     (∀ x : Serial, (s.sendOrder k (.probe x tag)).entry k tag = some { e with owed := { e.owed with probe := false } }) ∧
     (∀ d : Nat, (s.sendOrder k (.adjust tag d)).entry k tag = some { e with owed := { e.owed with adjust := false } }) ∧
     ∀ x : Serial,
       (e.state ≠ .leaving →
         (s.sendOrder k (.drop x tag)).entry k tag = some { e with owed := { e.owed with drop := false } }) ∧
       (e.state = .leaving → s.sendOrder k (.drop x tag) = s.vacate k tag)) ∧
  (∀ (s : State) (k : TreeId) (tag : Nat), tagOk tag = true → StoresCanonical s →
     let t := s.vacate k tag
     t = { s with roster := t.roster, watches := t.watches } ∧ t.entry k tag = none ∧
     (∀ (j : TreeId) (tag' : Nat), tagOk tag' = true → j ≠ k ∨ tag' ≠ tag → t.entry j tag' = s.entry j tag') ∧
     ∀ (n : Nat) (w : Watch),
       Store.read n t.watches = some w ↔ Store.read n s.watches = some w ∧ ¬ (w.tree = k ∧ w.tag = tag)) ∧
  (∀ (s : State) (k : TreeId) (tags : List Nat), (∀ tag ∈ tags, tagOk tag = true) →
     let hush := s.sendOrder k (.hush tags)
     let wake := s.sendOrder k (.wake tags)
     hush = { s with roster := hush.roster } ∧ wake = { s with roster := wake.roster } ∧
     ∀ (j : TreeId) (tag : Nat), tagOk tag = true →
       (j ≠ k ∨ tag ∉ tags ∨ s.entry j tag = none →
         hush.entry j tag = s.entry j tag ∧ wake.entry j tag = s.entry j tag) ∧
       ∀ e : Entry, j = k → tag ∈ tags → s.entry j tag = some e →
         let woken := fun (b : Body) => wake.entry j tag = some { e with owed := { e.owed with wake := false }, body := b }
         hush.entry j tag = some { e with owed := { e.owed with hush := false } } ∧
         (∀ f : Timed, e.body = .timed f → woken (.timed { f with hushed := false })) ∧
         (∀ f : Active, e.body = .active f → woken (.active { f with hushed := false })) ∧
         (∀ f : Silent, e.body = .silent f → woken (.silent { f with hushed := false })) ∧
         (∀ f : Fenced, e.body = .fenced f → woken (.fenced { f with hushed := false })) ∧
         (e.state = .heard ∨ e.state = .leaving → woken e.body))

/-- ROUND_START: the round number rises by 1 through its wrap, the cut of the new round is still to come, each tree releases
the plan record of the round that ended and sends a frame exactly where it holds a record for the round after the new one, with
that record's windows and grants and at most seven general orders. State of trees, settings, queue, journal, admission, band,
allocations and answers stay. -/
def Obligations.RoundBegins : Prop :=
  ∀ s : State, ∃ t : State, exec .roundStart s = .next t ∧
    t.round = s.round + 1 ∧ t.cutTaken = false ∧
    (∀ k : TreeId,
      (t.tree k).plans = (s.tree k).plans.filter (fun r => r.round ≠ s.round) ∧
      (t.tree k).phase = (s.tree k).phase ∧ (t.tree k).settings = (s.tree k).settings ∧
      (t.tree k).lead = (s.tree k).lead ∧ (t.tree k).bookedCall = (s.tree k).bookedCall ∧
      (t.tree k).bookedDark = (s.tree k).bookedDark ∧ (t.tree k).engine.calls = (s.tree k).engine.calls ∧
      (t.tree k).engine.count = (s.tree k).engine.count ∧ (t.tree k).light.baseline = (s.tree k).light.baseline ∧
      (t.tree k).light.observations = (s.tree k).light.observations ∧
      match (s.tree k).plans.find? (fun r => r.round = s.round + 2) with
      | none => (t.tree k).framer.frame = none
      | some r => ∃ f : Frame, (t.tree k).framer.frame = some f ∧ f.round = s.round + 1 ∧ f.settling = r.settling ∧
          f.dark = r.dark ∧ f.window = r.window ∧ f.grants = r.grants ∧ f.general.length ≤ 7) ∧
    t.queue = s.queue ∧ t.journal = s.journal ∧ t.admissions = s.admissions ∧ t.openMode = s.openMode ∧
    t.band = s.band ∧ t.routes = s.routes ∧ t.upBuffer = s.upBuffer ∧ t.tickets = s.tickets ∧
    ∀ p : Port, (t.port p).sent = (s.port p).sent ∧ (t.port p).inProgress = (s.port p).inProgress ∧
      (t.port p).waiting = (s.port p).waiting ∧ (t.port p).allocation = (s.port p).allocation ∧
      (t.port p).stalled = (s.port p).stalled

/-- The instant a round ends, in either order (R69, R87, log entry 5): ROUND_START keeps what is still to be judged of the
round that ended. A tree that judges light keeps the last grant where it ended with quantum 1,874, with what is noted of it, or
with quantum 1,873 and a guard that is still open, so that its burst, its end and its guard are judged with the old round's
number as before it; every other grant of that round is past. A RUNNING tree keeps the start of an idle stretch of at least 8
quanta whose level was not taken, for the next IDLE_STRETCH_END. All else the checker noted starts afresh. -/
def Obligations.OpenEndsCarried : Prop :=
  ∀ (s : State) (k : TreeId), ∃ t : State, exec .roundStart s = .next t ∧
    let x := s.tree k
    let open1873 := fun (g : Grant) => g.start + g.length = 1874 ∧
      ∃ ok lightEnd ranOn, Store.read g.tag x.checker.marks = some (.heard ok lightEnd ranOn true)
    let keeps := fun (g : Grant) => x.checker.muted = false ∧ (g.start + g.length = 1875 ∨ open1873 g)
    let last := fun (g : Grant) => ∃ (r : PlanRecord) (front : List Grant),
      x.record s.round = some r ∧ r.grants = front ++ [g]
    (∀ g : Grant, last g → keeps g →
      t.grantsOf k s.round = [g] ∧ t.markOf k s.round g.tag = Store.read g.tag x.checker.marks) ∧
    ((∀ g : Grant, last g → ¬ keeps g) → t.grantsOf k s.round = []) ∧
    (∀ r : PlanRecord, x.record s.round = some r →
      let first := idleStart r x.guardAtZero
      (x.phase = .running → x.checker.muted = false → x.checker.idleTaken = false → first + 8 ≤ 1875 →
        (t.tree k).checker.carriedIdle = some { round := s.round, first := first }) ∧
      (x.phase ≠ .running ∨ x.checker.muted = true ∨ x.checker.idleTaken = true ∨ 1875 < first + 8 →
        (t.tree k).checker.carriedIdle = none)) ∧
    (x.record s.round = none → (t.tree k).checker.carriedIdle = none) ∧
    (t.tree k).checker.marks = [] ∧ (t.tree k).checker.darkTaken = false ∧ (t.tree k).checker.idleTaken = false ∧
    (t.tree k).checker.muted = false

/-- The order places of a frame that begins. The enrolment place carries the PROBE booked for this frame; with none booked, the
ASSIGN of the lowest TIMED tag that owes it, or nothing. The seven general places take the owed orders by rank, FENCE, DROP,
one HUSH list, one WAKE list, RELEASE, ASSIGN, PROBE, ADJUST, within a rank in ascending tag, without the order in the
enrolment place; what finds no place stays owed. Each order carried counts as sent: the entries are what sending the orders in
turn leaves (OrdersOwedAndSent), but for the capped mark, which a THROTTLE fired by the frame's packets may set. -/
def Obligations.OrderPlacesFilled : Prop :=
  ∀ s : State, RosterSound s → TagsInRange s →
    ∃ t : State, exec .roundStart s = .next t ∧ ∀ k : TreeId,
      let es := s.treeEntries k
      let owing := fun (o : OrderKind) => es.filter fun x => x.2.owed.has o
      let tags := fun (o : OrderKind) => (owing o).map fun x => x.1
      let uncapped := fun (o : Option Entry) => o.map fun e => { e with capped := false }
      ((∀ r ∈ (s.tree k).plans, r.round ≠ s.round + 2) →
        (t.tree k).framer.frame = none ∧
        ∀ tag : Nat, tagOk tag = true → uncapped (t.entry k tag) = uncapped (s.entry k tag)) ∧
      ((∃ r ∈ (s.tree k).plans, r.round = s.round + 2) →
        ∃ f : Frame, (t.tree k).framer.frame = some f ∧ (t.tree k).engine.bookedProbe = none ∧
          (∀ (tag : Nat) (e : Entry), (s.tree k).engine.bookedProbe = some (s.round + 1, tag) → s.entry k tag = some e →
            e.owed.probe = true → f.enrolment = some (.probe e.serial tag)) ∧
          ((∀ tag : Nat, (s.tree k).engine.bookedProbe ≠ some (s.round + 1, tag)) →
            (∀ x ∈ es, ¬ (x.2.state = .timed ∧ x.2.owed.assign = true)) → f.enrolment = none) ∧
          (∀ (tag : Nat) (e : Entry) (g : Timed),
            (∀ tag' : Nat, (s.tree k).engine.bookedProbe ≠ some (s.round + 1, tag')) →
            (tag, e) ∈ es → e.body = .timed g → e.owed.assign = true →
            (∀ x ∈ es, x.1 < tag → ¬ (x.2.state = .timed ∧ x.2.owed.assign = true)) →
            f.enrolment = some (.assign e.serial tag g.e)) ∧
          f.general =
            (((owing .fence).map (fun x : Nat × Entry => OrderPlace.fence x.2.serial x.1) ++
              (owing .drop).map (fun x => OrderPlace.drop x.2.serial x.1) ++
              (if tags .hush = [] then [] else [OrderPlace.hush (tags .hush)]) ++
              (if tags .wake = [] then [] else [OrderPlace.wake (tags .wake)]) ++
              (owing .release).map (fun x => OrderPlace.release x.1) ++
              (owing .assign).map (fun x => OrderPlace.assign x.2.serial x.1 (x.2.delay.getD 0)) ++
              (owing .probe).map (fun x => OrderPlace.probe x.2.serial x.1) ++
              (owing .adjust).map (fun x => OrderPlace.adjust x.1 (x.2.delay.getD 0))).filter
                fun o => some o ≠ f.enrolment).take 7 ∧
          ∀ tag : Nat, tagOk tag = true → uncapped (t.entry k tag) =
            uncapped (((f.enrolment.toList ++ f.general).foldl (State.sendOrder k) s).entry k tag))

/-- A frame that begins packs its tree's buffer from the oldest packet on: packets for ACTIVE entries are sent, those for all
others are discarded, up to the first packet to be sent that does not fit the room the frame's head leaves of 120,000 bytes;
that packet and those behind it stay. What is sent counts as down bytes of its slot in the current band, what is discarded for
a FENCED entry as withheld bytes, each to at most 2^48 - 1, and nothing else of the bytes counts; the saturated mark is set
where one of them would have passed that, or where a count of the round saturates, and for no other reason. A tree that sends
no frame packs nothing. (A packet that waits at the interface may then join the buffer.) -/
def Obligations.FramePacked : Prop :=
  ∀ s : State, BuffersWithin s → RosterSound s → MetersInRange s → TagsInRange s → s.heldPacket = none →
    ∃ t : State, exec .roundStart s = .next t ∧ ∀ k : TreeId,
      let buffer := (s.tree k).framer.buffer
      let bytes := fun (ps : List DownPacket) => (ps.map fun p => p.payload.length).sum
      ((∀ r ∈ (s.tree k).plans, r.round ≠ s.round + 2) →
        (t.tree k).framer = { buffer := buffer, frame := none } ∧
        ∀ tag : Nat, tagOk tag = true → ∀ m : Meters, s.meterOf k tag = some m → ∃ m' : Meters,
          t.meterOf k tag = some m' ∧ m'.down = m.down ∧ m'.withheld = m.withheld ∧
          (m'.saturated = true ↔ m.saturated = true ∨ roundSaturates s k tag m)) ∧
      ((∃ r ∈ (s.tree k).plans, r.round = s.round + 2) →
        ∃ (f : Frame) (taken left : List DownPacket),
          (t.tree k).framer = { buffer := left, frame := some f } ∧ buffer = taken ++ left ∧
          f.payload = taken.filter (fun p => s.slotState k p.tag = .active) ∧
          let room := 120000 - headLength f.grants.length f.enrolment f.general
          bytes f.payload ≤ room ∧
          (∀ (p : DownPacket) (rest : List DownPacket), left = p :: rest →
            s.slotState k p.tag = .active ∧ room < bytes f.payload + p.payload.length) ∧
          ∀ tag : Nat, tagOk tag = true → ∀ m : Meters, s.meterOf k tag = some m → ∃ m' : Meters,
            t.meterOf k tag = some m' ∧
            let sent := bytes (f.payload.filter fun p => p.tag = tag)
            let withheld := bytes (taken.filter fun p => p.tag = tag ∧ s.slotState k p.tag = .fenced)
            m'.down = m.down.set s.band (min 281474976710655 (m.down.get s.band + sent)) ∧
            m'.withheld = m.withheld.set s.band (min 281474976710655 (m.withheld.get s.band + withheld)) ∧
            (m'.saturated = true ↔ m.saturated = true ∨ roundSaturates s k tag m ∨
              281474976710655 < m.down.get s.band + sent ∨ 281474976710655 < m.withheld.get s.band + withheld))

/-- ROUND_START tests the quiet condition of a hunt's step that has no effective round, where the tree sends a frame, after the
frame's orders count as sent: SEARCH wants every member of the group hushed and owing no HUSH and no other entry hushed; TRIAL
the candidate owing no FENCE and no entry hushed; ALL-QUIET every member of the quiet set hushed and owing no HUSH, the
candidate owing no FENCE, and no other entry hushed. Where it holds in frame n, the effective round becomes n + 1; else, and
for a step that has an effective round or a tree that sends no frame, the hunt stays as it is. -/
def Obligations.QuietConditionTested : Prop :=
  ∀ (s : State) (k : TreeId) (h : Hunt), (s.tree k).light.suspicion = .hunt h →
    ∃ t : State, exec .roundStart s = .next t ∧
      let sends := ∃ r ∈ (s.tree k).plans, r.round = s.round + 2
      let quiet := fun (tags : List Nat) (tag : Nat) (e : Entry) =>
        (tag ∈ tags → e.hushed = true ∧ e.owed.hush = false) ∧ (tag ∉ tags → e.hushed = false)
      let holds :=
        match h.phase with
        | .search group =>
          (∀ g ∈ group, ∃ e : Entry, (g, e) ∈ t.treeEntries k) ∧ ∀ x ∈ t.treeEntries k, quiet group x.1 x.2
        | .trial c => ∀ x ∈ t.treeEntries k, x.2.hushed = false ∧ (x.1 = c → x.2.owed.fence = false)
        | .allQuiet c set =>
          (∀ g ∈ set, ∃ e : Entry, (g, e) ∈ t.treeEntries k) ∧
          ∀ x ∈ t.treeEntries k, quiet set x.1 x.2 ∧ (x.1 = c → x.2.owed.fence = false)
      (sends → h.effective = none → holds →
        (t.tree k).light.suspicion = .hunt { h with effective := some (s.round + 2) }) ∧
      (¬ sends ∨ h.effective ≠ none ∨ ¬ holds → (t.tree k).light.suspicion = .hunt h)

/-- ROUND_START attributes the round that begins to the slots whose meters are open, from the record that governs it: 1 to the
in-service, hushed or fenced rounds by the slot's entry mark, and to the granted quanta the payload of the record's grants to
the slot's present occupant; each stops at 4,294,967,295, and where one would pass it the saturated mark is set (FramePacked
says that nothing else but a byte count sets it). Without a record for the round nothing is attributed, closed meters stay
closed, and opened cut, up bytes and the partial mark stay. -/
def Obligations.RoundCountsAttributed : Prop :=
  ∀ s : State, ∃ t : State, exec .roundStart s = .next t ∧
    ∀ (k : TreeId) (tag : Nat), tagOk tag = true →
      (s.meterOf k tag = none → t.meterOf k tag = none) ∧
      ∀ m : Meters, s.meterOf k tag = some m → ∃ m' : Meters, t.meterOf k tag = some m' ∧
        m'.openedCut = m.openedCut ∧ m'.up = m.up ∧ m'.partialSpan = m.partialSpan ∧
        (m.saturated = true ∨ roundSaturates s k tag m → m'.saturated = true) ∧
        ((∀ r ∈ (s.tree k).plans, r.round ≠ s.round + 1) →
          m'.inService = m.inService ∧ m'.hushed = m.hushed ∧ m'.fenced = m.fenced ∧ m'.granted = m.granted) ∧
        ∀ r : PlanRecord, (s.tree k).plans.find? (fun r => r.round = s.round + 1) = some r →
          let counted := fun (n : Nat) (mark : EntryMark) =>
            if Store.read tag r.marks = some mark then min 4294967295 (n + 1) else n
          m'.inService = counted m.inService .inService ∧ m'.hushed = counted m.hushed .hushed ∧
          m'.fenced = counted m.fenced .fenced ∧
          (s.entry k tag = none → m'.granted = m.granted) ∧
          ∀ e : Entry, s.entry k tag = some e → m'.granted = min 4294967295
            (m.granted + ((r.grants.filter fun g => g.tag = tag ∧ g.occupied = e.occupied).map fun g => g.payload).sum)

/-- The traffic interface. A packet offered while ready is given: one of length 0 or above 2,048, one for a DOWN or FAULTED
tree, and one with a tag out of 1 to 128 is taken and discarded; any other joins its tree's buffer where the fill stays at most
262,144 bytes, and else waits with ready withheld; while one waits none is taken (log entry 16). A waiting packet is taken once
its tree has room, and discarded where its tree is DOWN or FAULTED. The transmit lane takes the oldest packet of the upstream
buffer. Nothing else changes. -/
def Obligations.PacketsHandled : Prop :=
  (∀ (s : State) (k : TreeId) (tag : Nat) (payload : List Byte),
    let x := s.tree k
    let fill := (x.framer.buffer.map fun p => p.payload.length).sum
    let good := 1 ≤ payload.length ∧ payload.length ≤ 2048 ∧ (x.phase = .settling ∨ x.phase = .running) ∧
      1 ≤ tag ∧ tag ≤ 128
    (s.heldPacket ≠ none → exec (.packetOffered k tag payload) s = .next s) ∧
    (s.heldPacket = none → ¬ good → exec (.packetOffered k tag payload) s = .next s) ∧
    (s.heldPacket = none → good → fill + payload.length ≤ 262144 →
      exec (.packetOffered k tag payload) s =
        .next (s.setTree k { x with framer := { x.framer with
          buffer := x.framer.buffer ++ [{ tag := tag, payload := payload }] } })) ∧
    (s.heldPacket = none → good → 262144 < fill + payload.length →
      exec (.packetOffered k tag payload) s =
        .next { s with heldPacket := some { tree := k, packet := { tag := tag, payload := payload } } })) ∧
  (∀ (s : State) (o : OfferedPacket), s.heldPacket = some o →
    let x := s.tree o.tree
    let fill := (x.framer.buffer.map fun p => p.payload.length).sum
    (x.phase = .down ∨ x.phase = .faulted → exec .heldPacketTaken s = .next { s with heldPacket := none }) ∧
    (x.phase = .settling ∨ x.phase = .running → fill + o.packet.payload.length ≤ 262144 →
      exec .heldPacketTaken s =
        .next ({ s with heldPacket := none }.setTree o.tree { x with framer := { x.framer with
          buffer := x.framer.buffer ++ [o.packet] } })) ∧
    (x.phase = .settling ∨ x.phase = .running → 262144 < fill + o.packet.payload.length →
      exec .heldPacketTaken s = .next s)) ∧
  ∀ (s : State) (p : UpPacket) (rest : List UpPacket), s.upBuffer = p :: rest →
    exec .packetDelivered s = .next { s with upBuffer := rest, delivered := s.delivered ++ [p] }

/-! ## Upstream reception (chapter 5) -/

/-- A clean burst of an ACTIVE home in its grant's acceptance span, over at most 24 byte-times past the grant, with the home's tag, type 1 and whole packets: its report
in quanta, rounded up, at most 65,535, becomes the need and the miss count 0; an offset of at most 4 byte-times leaves the
delay, a larger one corrects it within 0 to T and makes ADJUST owed; its packets join the upstream buffer where they fit, and
their bytes the up bytes of the current band. No other slot changes. A burst after a foreign one of its span may be accepted
(log entry 27). -/
def Obligations.ActiveBurstAccepted : Prop :=
  ∀ (s : State) (k : TreeId) (b : Burst) (r : PlanRecord) (g : Grant) (e : Entry) (f : Active) (packets : List (List Byte)),
    RosterSound s → (s.tree k).phase = .running → (s.tree k).checker.muted = false →
    (s.tree k).record s.round = some r → r.grants.find? (fun x => x.accepts b.start) = some g → tagOk g.tag = true →
    undecided (Store.read g.tag (s.tree k).checker.marks) = true → s.entry k g.tag = some e → e.occupied = g.occupied →
    e.body = .active f → e.owed.drop = false →
    b.checkOk = true → b.tag = g.tag → b.type = 1 → b.packets = some packets →
    b.stop ≤ 32 * ((g.start : Int) + g.length) + 24 →
    (∀ x ∈ s.watches, ¬ (x.2.tree = k ∧ x.2.tag = g.tag)) →
    let bytes := (packets.map List.length).sum
    let offset := b.start - 32 * ((g.start : Int) + 1)
    (s.upBuffer.map fun p => p.payload.length).sum + bytes ≤ 262144 →
    ∃ t : State, exec (.burstEnd k s.round b) s = .next t ∧
      (∃ (d : Nat) (o : Owed),
        t.entry k g.tag = some { e with
          owed := o, body := .active { f with e := d, need := min 65535 ((b.report + 31) / 32), missCount := 0 } } ∧
        (offset.natAbs ≤ 4 → d = f.e ∧ o = e.owed) ∧
        (4 < offset.natAbs → d = min (s.tree k).settings.target ((f.e : Int) - offset).toNat ∧
          o = { e.owed with adjust := true })) ∧
      (∀ (j : TreeId) (tag : Nat), tagOk tag = true → j ≠ k ∨ tag ≠ g.tag → t.entry j tag = s.entry j tag) ∧
      t.upBuffer = s.upBuffer ++ packets.map (fun p => { tree := k, tag := g.tag, payload := p }) ∧
      (∀ m : Meters, s.meterOf k g.tag = some m → m.up.get s.band + bytes ≤ 281474976710655 →
        t.meterOf k g.tag = some { m with up := m.up.set s.band (m.up.get s.band + bytes) }) ∧
      t.round = s.round ∧ t.band = s.band ∧ t.queue = s.queue ∧ t.journal = s.journal ∧ t.watches = s.watches ∧
      Store.read g.tag (t.tree k).checker.marks = some (.heard true b.stop false true)

/-- A clean burst on its grant, over at most 24 byte-times past it, of the round in progress or carried over the round's end, by
the state of the entry it was granted to. ACTIVE and FENCED: the delay is corrected by an offset above 4 byte-times, within 0 to T, with ADJUST owed and
REACH_LIMIT where it had to be clamped; the report sets the need; an ACTIVE entry's miss count becomes 0; the packets are
delivered. TIMED in a GREETING grant: the delay is corrected and the home becomes ACTIVE with HOME_ACTIVE, a new home's meters
opening first. SILENT: delay and packets alone. TIMED in another grant (log entry 22), HEARD and LEAVING, and a slot that is
VACANT or has a later occupant: nothing. A burst after a foreign one of its span may be accepted (log entry 27). The packets of
one burst join the upstream buffer together and their bytes count, or, where they do not all fit 262,144 bytes, they are
discarded uncounted and the other effects stand. CountsFireWatches says what a count does. -/
def Obligations.BurstsByState : Prop :=
  ∀ (s : State) (k : TreeId) (round : Round) (b : Burst) (g : Grant) (packets : List (List Byte)),
    StoresCanonical s → (s.tree k).phase = .running → (s.tree k).checker.muted = false →
    (s.grantsOf k round).find? (fun x => x.accepts b.start) = some g → tagOk g.tag = true →
    undecided (s.markOf k round g.tag) = true →
    b.checkOk = true → b.tag = g.tag → b.type = 1 → b.packets = some packets →
    b.stop ≤ 32 * ((g.start : Int) + g.length) + 24 →
    let bytes := (packets.map List.length).sum
    let delivered := fun (t : State) =>
      if (t.upBuffer.map fun p => p.payload.length).sum + bytes ≤ 262144 then
        { t with upBuffer := t.upBuffer ++
          packets.map fun p => ({ tree := k, tag := g.tag, payload := p } : UpPacket) }.countUp k g.tag bytes
      else t
    let does := fun (t : State) =>
      exec (.burstEnd k round b) s = .next (t.setMark k round g.tag (.heard true b.stop false true))
    let offset := b.start - 32 * ((g.start : Int) + 1)
    let target := (s.tree k).settings.target
    let need := min 65535 ((b.report + 31) / 32)
    (s.entry k g.tag = none → does s) ∧
    ∀ e : Entry, s.entry k g.tag = some e →
      (e.occupied ≠ g.occupied ∨ e.state = .heard ∨ e.state = .leaving ∨ e.state = .timed ∧ g.kind ≠ .greeting → does s) ∧
      (e.occupied = g.occupied → ∀ (d : Nat) (becomes : Nat → Body) (greeted : State → State),
        ((∃ f : Active, e.body = .active f ∧ d = f.e ∧
            becomes = fun d' => .active { f with e := d', need := need, missCount := 0 }) ∧ greeted = id ∨
          (∃ f : Fenced, e.body = .fenced f ∧ d = f.e ∧ becomes = fun d' => .fenced { f with e := d', need := need }) ∧
            greeted = id ∨
          (∃ f : Silent, e.body = .silent f ∧ d = f.e ∧ becomes = fun d' => .silent { f with e := d' }) ∧ greeted = id ∨
          ∃ f : Timed, e.body = .timed f ∧ g.kind = .greeting ∧ d = f.e ∧
            (becomes = fun d' => .active { e := d', missCount := 0, need := need, credit := 0, lastGranted := some round
                                           history := [], hushed := f.hushed }) ∧
            greeted = fun u => (if f.former = none then u.openMeters k g.tag else u).raise k
              (.homeActive k g.tag e.serial f.former.isSome)) →
        let d' := min target ((d : Int) - offset).toNat
        let adjusted := s.setEntry k g.tag { e with owed := e.owed.add .adjust, body := becomes d' }
        (offset.natAbs ≤ 4 → does (delivered (greeted (s.setEntry k g.tag { e with body := becomes d })))) ∧
        (4 < offset.natAbs → 0 ≤ (d : Int) - offset → (d : Int) - offset ≤ target →
          does (delivered (greeted adjusted))) ∧
        (4 < offset.natAbs → (d : Int) - offset < 0 ∨ (target : Int) < (d : Int) - offset →
          does (delivered (greeted (adjusted.raise k (.reachLimit k g.tag e.serial offset d d'))))))

/-- A clean greeting of a TIMED home in a GREETING grant, begun and over in time and with no packets, makes it ACTIVE with the need of its
report, no credit and the round of the greeting as its last granted round; a new home's meters open, partial, at the round in
progress, a re-enrolled home's stay; HOME_ACTIVE is raised. A burst after a foreign one of its span may be accepted (log entry
27). -/
def Obligations.GreetingMakesActive : Prop :=
  ∀ (s : State) (k : TreeId) (b : Burst) (r : PlanRecord) (g : Grant) (e : Entry) (f : Timed),
    RosterSound s → (s.tree k).phase = .running → (s.tree k).checker.muted = false →
    (s.tree k).record s.round = some r → r.grants.find? (fun x => x.accepts b.start) = some g → tagOk g.tag = true →
    undecided (Store.read g.tag (s.tree k).checker.marks) = true → s.entry k g.tag = some e → e.occupied = g.occupied →
    e.body = .timed f → g.kind = .greeting →
    b.checkOk = true → b.tag = g.tag → b.type = 1 → b.packets = some [] →
    (b.start - 32 * ((g.start : Int) + 1)).natAbs ≤ 4 → b.stop ≤ 32 * ((g.start : Int) + g.length) + 24 →
    (∀ x ∈ s.watches, ¬ (x.2.tree = k ∧ x.2.tag = g.tag)) → MetersInRange s →
    ∃ t : State, exec (.burstEnd k s.round b) s = .next t ∧
      t.entry k g.tag = some { e with
        body := .active { e := f.e, missCount := 0, need := min 65535 ((b.report + 31) / 32), credit := 0
                          lastGranted := some s.round, history := [], hushed := f.hushed } } ∧
      (∀ (j : TreeId) (tag : Nat), tagOk tag = true → j ≠ k ∨ tag ≠ g.tag → t.entry j tag = s.entry j tag) ∧
      (f.former = none → s.meterOf k g.tag = none → t.meterOf k g.tag =
        some { openedCut := s.round, up := Quad.all 0, down := Quad.all 0, withheld := Quad.all 0, granted := 0,
               inService := 0, hushed := 0, fenced := 0, partialSpan := true, saturated := false,
               cappedDuring := false }) ∧
      (f.former ≠ none → t.meterOf k g.tag = s.meterOf k g.tag) ∧
      ∃ n ∈ (t.port (routeOf s.routes .homeActive)).notices,
        n.kind = .homeActive ∧ n.tree = some k ∧ n.detail = .homeActive k g.tag e.serial f.former.isSome

/-- A grant of the round in progress, or one carried over the round's end, whose burst is not received. A burst that runs on more than
24 byte-times past it, whatever its header says, is damaged, its own light taken to end there, also where only the command of
its end tells it (log entry 4); one that fails its check code, or does not hold its packets, is damaged. At its end a grant without a burst is
missed, or misplaced by loose light or by a foreign burst in its span; while a burst of its span still shines the outcome waits
for that light's end. ACTIVE: damaged light sets the miss count to 0, a miss raises it, and where it reaches S the home becomes
SILENT, HOME_SILENT is raised and a suspect leaves the hunt; a home that is hushed or owes a WAKE takes no miss. TIMED with a
GREETING grant: each of the three adds a greeting miss, unless it is hushed or owes a WAKE; the third fails with NO_GREETING,
making a new home VACANT and returning a re-enrolling one to SILENT with its former delay. For every other entry nothing but
the outcome is noted. (A foreign burst that still shines at the end: log entry 14. A TIMED entry in another grant: log entry
22. A burst after a foreign one of its span: log entry 27. HOME_SILENT before a ROGUE_UNRESOLVED: log entry 37.) -/
def Obligations.GrantsUnheard : Prop :=
  ∀ (s : State) (k : TreeId) (round : Round) (g : Grant) (e : Entry),
    StoresCanonical s → (s.tree k).phase = .running → (s.tree k).checker.muted = false →
    tagOk g.tag = true → s.entry k g.tag = some e → e.occupied = g.occupied →
    let mark := s.markOf k round g.tag
    let greeting := fun (f : Timed) (does : State → Prop) =>
      (f.hushed = true ∨ e.owed.wake = true → does s) ∧
      (f.hushed = false → e.owed.wake = false →
        (f.misses < 2 → does (s.setEntry k g.tag { e with body := .timed { f with misses := f.misses + 1 } })) ∧
        (2 ≤ f.misses → f.former = none →
          does ((s.vacate k g.tag).raise k (.enrolFailed k g.tag e.serial .noGreeting none none false))) ∧
        ∀ d : Nat, 2 ≤ f.misses → f.former = some d →
          does ((s.setEntry k g.tag { e with owed := Owed.none, body := .silent { e := d, hushed := f.hushed } }).raise k
            (.enrolFailed k g.tag e.serial .noGreeting none none true)))
    let damaged := fun (does : State → Prop) =>
      (∀ f : Active, e.body = .active f →
        does (s.setEntry k g.tag { e with body := .active { f with missCount := 0 } })) ∧
      (∀ f : Timed, e.body = .timed f → g.kind = .greeting → greeting f does) ∧
      (e.state = .timed ∧ g.kind ≠ .greeting ∨ e.state ∈ [EntryState.silent, .fenced, .heard, .leaving] → does s)
    let missed := fun (does : State → Prop) =>
      (∀ f : Active, e.body = .active f →
        (f.hushed = true ∨ e.owed.wake = true → does s) ∧
        (f.hushed = false → e.owed.wake = false →
          (min 16 (f.missCount + 1) < (s.tree k).settings.silence →
            does (s.setEntry k g.tag { e with body := .active { f with missCount := min 16 (f.missCount + 1) } })) ∧
          ((s.tree k).settings.silence ≤ min 16 (f.missCount + 1) →
            does (((s.setEntry k g.tag { e with body := .silent { e := f.e, hushed := f.hushed } }).raise k
              (.homeSilent k g.tag e.serial)).leaveHunt k g.tag)))) ∧
      (∀ f : Timed, e.body = .timed f → g.kind = .greeting → greeting f does) ∧
      (e.state = .timed ∧ g.kind ≠ .greeting ∨ e.state ∈ [EntryState.silent, .fenced, .heard, .leaving] → does s)
    let noted := fun (c : Instr) (m : GrantMark) (t : State) => exec c s = .next (t.setMark k round g.tag m)
    let latest : Int := 32 * ((g.start : Int) + g.length) + 24
    (∀ start : Int, (s.grantsOf k round).find? (fun x => x.accepts start) = some g → undecided mark = true →
      damaged (noted (.burstRunOn k round start) (.heard false latest true true))) ∧
    (∀ b : Burst, (s.grantsOf k round).find? (fun x => x.accepts b.start) = some g → undecided mark = true →
      let own := b.tag = g.tag ∧ b.type = 1
      (latest < b.stop → damaged (noted (.burstEnd k round b) (.heard false latest true true))) ∧
      (b.stop ≤ latest → b.checkOk = false ∨ own ∧ b.packets = none →
        damaged (noted (.burstEnd k round b) (.heard false b.stop false true))) ∧
      (b.stop ≤ latest → b.checkOk = true → ¬ own →
        (mark = some .burning → missed (noted (.burstEnd k round b) .misplaced)) ∧
        (mark ≠ some .burning → noted (.burstEnd k round b) .foreign s))) ∧
    ∀ light : List LightSpan, (s.grantsOf k round).find? (fun x => x.tag = g.tag) = some g →
      let ends := Instr.grantEnd k round g.tag light
      (mark = some .foreign → missed (noted ends .misplaced)) ∧
      (mark = none →
        ((light.any fun l => g.accepts l.start) = true → noted ends .burning s) ∧
        ((light.any fun l => g.accepts l.start) = false →
          missed (noted ends
            (if light.any (looseLight (s.grantsOf k round) g) then .misplaced else .missed)))) ∧
      (mark ≠ none → mark ≠ some .foreign → exec ends s = .next s)

/-- The guard of a judged burst that is measured: within the burst's round, also where its end is taken after the next round
began (log entry 5), or in quantum 0 of the next round where that round has a plan without a call or probe window there. A
level at or below the effective limit is a clean burst, a level above it an overrun; the outcome joins the history, of at most
8, of an ACTIVE or FENCED entry. An ACTIVE entry with at least M_over overruns then is FENCED with FENCE owed, OVERRUN_FENCE is
raised with the guard's round (log entry 25), and a suspect leaves the hunt after it (log entry 37). A FENCED entry's history,
which R29 calls frozen, takes the outcome of an accepted burst (log entry 42), of a damaged one (log entry 26), and of one
accepted while the entry was SILENT (log entry 35). For other entries nothing but the judgement is noted. -/
def Obligations.GuardJudged : Prop :=
  ∀ (s judged : State) (k : TreeId) (round : Round) (g : Grant) (begins : List Int) (samples : List Sample) (e : Entry)
    (ok ranOn : Bool) (lightEnd : Int),
    StoresCanonical s → (s.tree k).phase = .running → (s.tree k).checker.muted = false → tagOk g.tag = true →
    let heard := fun (isOpen : Bool) => GrantMark.heard ok lightEnd ranOn isOpen
    (round = s.round ∧ g.start + g.length < 1875 ∧
        (∃ r : PlanRecord, (s.tree k).record s.round = some r ∧ r.grants.find? (fun x => x.tag = g.tag) = some g) ∧
        Store.read g.tag (s.tree k).checker.marks = some (heard true) ∧
        judged = s.setTree k { s.tree k with checker := { (s.tree k).checker with
          marks := Store.write g.tag (heard false) (s.tree k).checker.marks } }) ∨
      (round ≠ s.round ∧
        (g.start + g.length < 1875 ∨ s.round = round + 1 ∧
          ∃ r : PlanRecord, (s.tree k).record s.round = some r ∧ ∀ w ∈ r.window, w.opening ≠ 0) ∧
        (s.tree k).checker.carried = some { round := round, grant := g, mark := some (heard true) } ∧
        judged = s.setTree k { s.tree k with checker := { (s.tree k).checker with
          carried := some { round := round, grant := g, mark := some (heard false) } } }) →
    s.entry k g.tag = some e → e.occupied = g.occupied →
    let level := guardLevel g lightEnd (s.nextBegin k round g begins) samples
    let limit := min 4095
      ((s.tree k).light.baseline + (s.tree k).light.limitValue * (s.tree k).light.limitScale)
    let overrun : Bool := limit < level
    let longer := fun (h : List Bool) => (if h.length = 8 then h.tail else h) ++ [overrun]
    let does := fun (t : State) => exec (.guardEnd k round g.tag begins samples) s = .next t
    (∀ f : Active, e.body = .active f → e.owed.drop = false → f.history.length ≤ 8 →
      let history := longer f.history
      (overrun = false ∨ history.count true < (s.tree k).light.mOver →
        does (judged.setEntry k g.tag { e with body := .active { f with history := history } })) ∧
      (overrun = true → (s.tree k).light.mOver ≤ history.count true →
        does (((judged.setEntry k g.tag { e with
            owed := { e.owed with fence := true, release := false }
            body := .fenced { e := f.e, need := f.need, credit := f.credit, lastGranted := f.lastGranted
                              history := history, hushed := f.hushed, trial := false } }).raise k
          (.overrunFence k g.tag e.serial (history.count true) level
            (if g.start + g.length < 1875 then round else round + 1))).leaveHunt k g.tag))) ∧
    (∀ f : Fenced, e.body = .fenced f → f.history.length ≤ 8 →
      does (judged.setEntry k g.tag { e with body := .fenced { f with history := longer f.history } })) ∧
    (e.state ∈ [EntryState.heard, .timed, .silent, .leaving] → does judged)

/-- An idle stretch of at least 8 quanta, that of the round in progress or, where its end is taken after the next round began,
that of the round before (log entry 5): a level at or below the effective limit is no observation; one above it is a stray
observation, which raises the stray count, and in CLEAR raises LIGHT_SEEN and begins WATCH, and with an M of 1 a hunt at once.
-/
def Obligations.IdleStretchJudged : Prop :=
  ∀ (s seen : State) (k : TreeId) (samples : List Sample) (round : Round) (first : Nat),
    (s.tree k).phase = .running → (s.tree k).checker.muted = false →
    let x := s.tree k
    (x.checker.carriedIdle = some { round := round, first := first } ∧
        seen = s.setTree k { x with checker := { x.checker with carriedIdle := none } }) ∨
      (x.checker.carriedIdle = none ∧ round = s.round ∧ x.checker.idleTaken = false ∧
        (∃ r : PlanRecord, x.record s.round = some r ∧ first = idleStart r x.guardAtZero) ∧ first + 8 ≤ 1875 ∧
        seen = s.setTree k { x with checker := { x.checker with idleTaken := true } }) →
    let level := levelOver (32 * first) 60000 samples
    let limit := min 4095 (x.light.baseline + x.light.limitValue * x.light.limitScale)
    let strays := min 4294967295 (x.light.strays + 1)
    let lit := fun (l : Light) => seen.setTree k { seen.tree k with light := l }
    let watched := (lit { x.light with strays := strays, suspicion := .watch, observations := [true] }).raise k
      (.lightSeen k round level limit true)
    (level ≤ limit → exec (.idleStretchEnd k samples) s = .next seen) ∧
    (limit < level → x.light.suspicion ≠ .clear →
      exec (.idleStretchEnd k samples) s = .next (lit { x.light with strays := strays })) ∧
    (limit < level → x.light.suspicion = .clear → 1 < x.light.m → exec (.idleStretchEnd k samples) s = .next watched) ∧
    (limit < level → x.light.suspicion = .clear → x.light.m ≤ 1 →
      exec (.idleStretchEnd k samples) s = .next (watched.beginHunt k))

/-! ## Light supervision (chapter 8) -/

/-- SET LIGHT LIMIT puts a value of at most 255 and a scale of 1, 4, 16 or 64 in force and answers the new effective limit; SET
CONFIRM sets M (1 to 8), V (1 to 4) and M_over (1 to 8) at once. Any other argument is BAD_ARGUMENT. Nothing else changes, the
suspicion state and the observation list included. ABANDON answers the suspicion state before it: in CLEAR it changes nothing,
in WATCH and UNRESOLVED it returns to CLEAR with an empty list, and in HUNT it ends the hunt ABANDONED in CLEAR, with no
notice, a trial-fenced candidate becoming ACTIVE with RELEASE owed and an empty history: every hushed entry of the tree is
woken, the list is emptied, the last hunt result keeps the reason, the round and the candidate where there is one, none in
SEARCH, and no other entry or tree changes. Another tree number is BAD_ARGUMENT. -/
def Obligations.LightRequests : Prop :=
  (∀ (s : State) (q : Byte) (n : Nat), PortFree s .supervisor →
     (∀ (k : TreeId) (value scale : Nat), n = k.val → value ≤ 255 → scale ∈ [1, 4, 16, 64] →
       exec (.setLightLimit .supervisor q n value scale) s =
         .next ((s.setTree k { s.tree k with light := { (s.tree k).light with
             limitValue := value, limitScale := scale } }).reply .supervisor q .done
           (.effectiveLimit (min 4095 ((s.tree k).light.baseline + value * scale))))) ∧
     (∀ value scale : Nat, 4 ≤ n ∨ 255 < value ∨ scale ∉ [1, 4, 16, 64] →
       exec (.setLightLimit .supervisor q n value scale) s = .next (s.reply .supervisor q .badArgument .nothing)) ∧
     (∀ (k : TreeId) (m v mo : Nat), n = k.val → 1 ≤ m → m ≤ 8 → 1 ≤ v → v ≤ 4 → 1 ≤ mo → mo ≤ 8 →
       exec (.setConfirm .supervisor q n m v mo) s =
         .next ((s.setTree k { s.tree k with light := { (s.tree k).light with m := m, v := v, mOver := mo } }).reply
           .supervisor q .done .nothing)) ∧
     ∀ m v mo : Nat, 4 ≤ n ∨ m = 0 ∨ 8 < m ∨ v = 0 ∨ 4 < v ∨ mo = 0 ∨ 8 < mo →
       exec (.setConfirm .supervisor q n m v mo) s = .next (s.reply .supervisor q .badArgument .nothing)) ∧
  (∀ (s : State) (q : Byte) (n : Nat), PortFree s .supervisor →
     (∀ k : TreeId, n = k.val →
       let quiet := s.setTree k { s.tree k with light := { (s.tree k).light with suspicion := .clear, observations := [] } }
       ((s.tree k).light.suspicion = .clear →
         exec (.abandon .supervisor q n) s = .next (s.reply .supervisor q .done (.suspicionBefore .clear))) ∧
       ((s.tree k).light.suspicion = .watch →
         exec (.abandon .supervisor q n) s = .next (quiet.reply .supervisor q .done (.suspicionBefore .watch))) ∧
       ((s.tree k).light.suspicion = .unresolved →
         exec (.abandon .supervisor q n) s = .next (quiet.reply .supervisor q .done (.suspicionBefore .unresolved))) ∧
       ∀ h : Hunt, (s.tree k).light.suspicion = .hunt h →
         let ends := fun (u : State) (tag : Option Nat) => exec (.abandon .supervisor q n) s =
           .next ((huntOver u k .clear .abandoned tag).reply .supervisor q .done (.suspicionBefore .hunt))
         (∀ group : List Nat, h.phase = .search group → ends s none) ∧
         ∀ (c : Nat) (quietTags : List Nat), h.phase = .trial c ∨ h.phase = .allQuiet c quietTags →
           StoresCanonical s → tagOk c = true →
           (∀ e : Entry, s.entry k c = some e → e.trial = false → ends s (some c)) ∧ (s.entry k c = none → ends s (some c)) ∧
           ∀ (e : Entry) (f : Fenced), s.entry k c = some e → e.body = .fenced f → f.trial = true →
             ends (s.setEntry k c { e with
               owed := if e.owed.drop then e.owed else { e.owed with release := true, fence := false }
               body := .active { e := f.e, missCount := 0, need := f.need, credit := f.credit
                                 lastGranted := f.lastGranted, history := [], hushed := f.hushed } }) (some c)) ∧
     (4 ≤ n → exec (.abandon .supervisor q n) s = .next (s.reply .supervisor q .badArgument .nothing)))

/-- A dark window of a RUNNING tree outside HUNT: its level and round are kept; in CLEAR a level at or below the effective
limit changes nothing else, and a hit raises LIGHT_SEEN and begins WATCH, and with an M of 1 a hunt at once; in WATCH the
outcome joins the list, which begins a hunt at M hits, and with fewer goes on up to 7 outcomes and at 8 ends in CLEAR with
LIGHT_GONE; in UNRESOLVED the last 8 outcomes are kept. HuntBegins says how a hunt begins. Quantum 0 after a missed grant is
measured (log entry 34). -/
def Obligations.DarkWindowJudged : Prop :=
  ∀ (s : State) (k : TreeId) (samples : List Sample) (r : PlanRecord) (width : Nat),
    (s.tree k).phase = .running → (s.tree k).record s.round = some r → r.dark = some width →
    (s.tree k).checker.muted = false → (s.tree k).checker.darkTaken = false →
    let x := s.tree k
    let level := darkLevel width x.guardAtZero samples
    let limit := min 4095 (x.light.baseline + x.light.limitValue * x.light.limitScale)
    let hit : Bool := limit < level
    let list := x.light.observations ++ [hit]
    let seen := fun (l : Light) => s.setTree k { x with
      light := { l with lastDark := some (level, s.round) }, checker := { x.checker with darkTaken := true } }
    let watched := (seen { x.light with suspicion := .watch, observations := [true] }).raise k
      (.lightSeen k s.round level limit false)
    (x.light.suspicion = .clear → hit = false → exec (.darkWindowEnd k samples) s = .next (seen x.light)) ∧
    (x.light.suspicion = .clear → hit = true → 1 < x.light.m → exec (.darkWindowEnd k samples) s = .next watched) ∧
    (x.light.suspicion = .clear → hit = true → x.light.m ≤ 1 →
      exec (.darkWindowEnd k samples) s = .next (watched.beginHunt k)) ∧
    (x.light.suspicion = .watch → x.light.m ≤ list.count true →
      exec (.darkWindowEnd k samples) s = .next ((seen { x.light with observations := list }).beginHunt k)) ∧
    (x.light.suspicion = .watch → list.count true < x.light.m → list.length < 8 →
      exec (.darkWindowEnd k samples) s = .next (seen { x.light with observations := list })) ∧
    (x.light.suspicion = .watch → list.count true < x.light.m → 8 ≤ list.length →
      exec (.darkWindowEnd k samples) s =
        .next ((seen { x.light with suspicion := .clear, observations := [] }).raise k
          (.lightGone k s.round (list.count true)))) ∧
    (x.light.suspicion = .unresolved →
      exec (.darkWindowEnd k samples) s =
        .next (seen { x.light with observations := list.drop (list.length - 8) }))

/-- How a hunt begins, and HUNT. The suspects are the tags of the tree's ACTIVE entries, and the observation list is emptied.
With no suspect the hunt is over at once, UNRESOLVED with reason FOREIGN; else a step is formed from the list with no effective
round and a dark run of 0. A list of one is verified: every hushed entry is woken, the ACTIVE candidate becomes FENCED with the
trial mark and FENCE owed, and the phase is TRIAL. Of a longer list the first half, rounded up, is the group of a SEARCH step:
an entry of it that is not hushed takes the hushed mark and owes HUSH, one that is hushed and owes WAKE owes HUSH instead, one
that is hushed and owes none needs no order; hushed entries of the rest of the list are woken. HUNT on a RUNNING tree without a
hunt answers the suspects and the size of the first group; a tree that is not RUNNING or has a hunt is WRONG_STATE, another
number BAD_ARGUMENT. -/
def Obligations.HuntBegins : Prop :=
  (∀ (s : State) (k : TreeId),
    let suspects := (s.treeEntries k).filterMap fun x => if x.2.state = .active then some x.1 else none
    let h : Hunt :=
      { phase := .search [], suspects := suspects, effective := none, darkRun := 0, steps := 0, started := s.round }
    (suspects = [] → s.beginHunt k = huntUnresolved s k h .foreign none) ∧
    (suspects ≠ [] → s.beginHunt k =
      (s.setTree k { s.tree k with light := { (s.tree k).light with observations := [] } }).formStep k h suspects)) ∧
  (∀ (s : State) (k : TreeId) (h : Hunt) (list : List Nat),
    (∀ c : Nat, list = [c] → tagOk c = true → s.formStep k h list =
      huntGoesOn (s.modTreeEntries k fun tag e =>
          let woken := if e.hushed then e.owe .wake else e
          match woken.body with
          | .active f =>
            if tag = c then
              { woken with body := .fenced { e := f.e, need := f.need, credit := f.credit, lastGranted := f.lastGranted
                                             history := f.history, hushed := f.hushed, trial := true } }.owe .fence
            else woken
          | _ => woken) k
        { h with phase := .trial c, suspects := list, effective := none, darkRun := 0 }) ∧
    (2 ≤ list.length →
      let group := list.take ((list.length + 1) / 2)
      s.formStep k h list =
        huntGoesOn (s.modTreeEntries k fun tag e =>
            if tag ∈ group then
              if e.hushed = false then (e.setHushed true).owe .hush else if e.owed.wake then e.owe .hush else e
            else if tag ∈ list ∧ e.hushed then e.owe .wake else e) k
          { h with phase := .search group, suspects := list, effective := none, darkRun := 0 })) ∧
  ∀ (s : State) (q : Byte) (n : Nat), PortFree s .supervisor →
    (∀ k : TreeId, n = k.val → (s.tree k).phase = .running → (∀ h : Hunt, (s.tree k).light.suspicion ≠ .hunt h) →
      let suspects := (s.treeEntries k).filterMap fun x => if x.2.state = .active then some x.1 else none
      exec (.hunt .supervisor q n) s = .next ((s.beginHunt k).reply .supervisor q .done
        (if suspects = [] then .huntForeign else .huntStarted suspects.length ((suspects.length + 1) / 2)))) ∧
    (∀ k : TreeId, n = k.val → (s.tree k).phase ≠ .running ∨ (∃ h : Hunt, (s.tree k).light.suspicion = .hunt h) →
      exec (.hunt .supervisor q n) s = .next (s.reply .supervisor q .wrongState .nothing)) ∧
    (4 ≤ n → exec (.hunt .supervisor q n) s = .next (s.reply .supervisor q .badArgument .nothing))

/-- A dark window of a RUNNING tree in HUNT. Before the step's effective round, or while it has none, the level is kept and no
more. From then on a low level lengthens the dark run, and the V-th in a row is a dark outcome; a hit is a lit one; each
outcome adds 1 to steps, to at most 255. SEARCH: lit wakes the group and forms a new step from the rest of the list, dark forms
one from the group. TRIAL: dark makes the candidate an ordinary fence, raises ROGUE_CONTAINED and ends the hunt CONTAINED in
CLEAR; lit hushes every ACTIVE and TIMED entry for ALL-QUIET. ALL-QUIET: the candidate is released with RELEASE owed, and the
hunt ends UNRESOLVED, FOREIGN when lit and ELUSIVE when dark. HuntBegins says how a step is formed. Quantum 0 after a missed
grant is measured (log entry 34). -/
def Obligations.HuntObserved : Prop :=
  ∀ (s : State) (k : TreeId) (samples : List Sample) (r : PlanRecord) (width : Nat) (h : Hunt),
    (s.tree k).phase = .running → (s.tree k).record s.round = some r → r.dark = some width →
    (s.tree k).checker.muted = false → (s.tree k).checker.darkTaken = false → (s.tree k).light.suspicion = .hunt h →
    let x := s.tree k
    let level := darkLevel width x.guardAtZero samples
    let hit : Bool := min 4095 (x.light.baseline + x.light.limitValue * x.light.limitScale) < level
    let seen := s.setTree k { x with
      light := { x.light with lastDark := some (level, s.round) }, checker := { x.checker with darkTaken := true } }
    let does := fun (t : State) => exec (.darkWindowEnd k samples) s = .next t
    let h' : Hunt := { h with steps := min 255 (h.steps + 1), darkRun := 0 }
    let dark := hit = false ∧ x.light.v ≤ h.darkRun + 1
    (h.effective = none → does seen) ∧
    ∀ n : Round, h.effective = some n →
      (laterThan n s.round = true → does seen) ∧
      (laterThan n s.round = false →
        (hit = false → h.darkRun + 1 < x.light.v → does (huntGoesOn seen k { h with darkRun := h.darkRun + 1 })) ∧
        (∀ group : List Nat, h.phase = .search group →
          (hit = true →
            does ((seen.modTreeEntries k fun tag e => if tag ∈ group ∧ e.hushed then e.owe .wake else e).formStep k h'
              (h.suspects.filter fun tag => tag ∉ group))) ∧
          (dark → does (seen.formStep k h' group))) ∧
        (∀ c : Nat, h.phase = .trial c →
          (hit = true →
            let quiet := (s.treeEntries k).filterMap fun y =>
              if y.2.state = .active ∨ y.2.state = .timed then some y.1 else none
            does (huntGoesOn (seen.modTreeEntries k fun tag e => if tag ∈ quiet then e.hush else e) k
              { h' with phase := .allQuiet c quiet, effective := none })) ∧
          (dark → ∀ (e : Entry) (f : Fenced), StoresCanonical s → tagOk c = true → s.entry k c = some e →
            e.body = .fenced f →
            does ((huntOver (seen.setEntry k c { e with body := .fenced { f with trial := false } }) k .clear .contained
              (some c)).raise k (.rogueContained k c e.serial h'.steps h.started)))) ∧
        ∀ (c : Nat) (quiet : List Nat), h.phase = .allQuiet c quiet → hit = true ∨ dark →
          ∀ (e : Entry) (f : Fenced), StoresCanonical s → tagOk c = true → s.entry k c = some e → e.body = .fenced f →
            f.trial = true →
            does (huntUnresolved (seen.setEntry k c ({ e with
              body := .active { e := f.e, missCount := 0, need := f.need, credit := f.credit, lastGranted := f.lastGranted
                                history := [], hushed := f.hushed } }.owe .release)) k h'
              (if hit then .foreign else .elusive) (some c)))

/-- An entry that becomes SILENT, FENCED or LEAVING, on a tree without a hunt: nothing more happens. In SEARCH a suspect leaves
list and group and is woken where it is hushed: the last suspect ends the hunt UNRESOLVED with reason EMPTY; an emptied group,
or one that now holds the whole list, leads to a new step from the list; any other keeps its step, effective round and dark
run. In TRIAL and ALL-QUIET the candidate ends the hunt EMPTY, and a member leaves the quiet set and is woken. No other entry
changes the hunt. The dark run of the new step is 0 (log entry 17). -/
def Obligations.SuspectLeavesHunt : Prop :=
  ∀ (s : State) (k : TreeId) (tag : Nat),
    let woken := s.modEntry k tag fun e => if e.hushed then e.owe .wake else e
    ((∀ h : Hunt, (s.tree k).light.suspicion ≠ .hunt h) → s.leaveHunt k tag = s) ∧
    ∀ h : Hunt, (s.tree k).light.suspicion = .hunt h →
      (∀ group : List Nat, h.phase = .search group →
        let list := h.suspects.filter fun x => x ≠ tag
        let rest := group.filter fun x => x ≠ tag
        (tag ∉ h.suspects → s.leaveHunt k tag = s) ∧
        (tag ∈ h.suspects → list = [] → s.leaveHunt k tag = huntUnresolved woken k h .empty none) ∧
        (tag ∈ h.suspects → list ≠ [] → rest = [] ∨ (∀ x ∈ list, x ∈ rest) →
          s.leaveHunt k tag = woken.formStep k h list) ∧
        (tag ∈ h.suspects → rest ≠ [] → (∃ x ∈ list, x ∉ rest) →
          s.leaveHunt k tag = huntGoesOn woken k { h with suspects := list, phase := .search rest })) ∧
      (∀ c : Nat, h.phase = .trial c →
        (tag = c → s.leaveHunt k tag = huntUnresolved s k h .empty (some c)) ∧ (tag ≠ c → s.leaveHunt k tag = s)) ∧
      ∀ (c : Nat) (quiet : List Nat), h.phase = .allQuiet c quiet →
        (tag = c → s.leaveHunt k tag = huntUnresolved s k h .empty (some c)) ∧
        (tag ≠ c → tag ∈ quiet →
          s.leaveHunt k tag = huntGoesOn woken k { h with phase := .allQuiet c (quiet.filter fun x => x ≠ tag) }) ∧
        (tag ≠ c → tag ∉ quiet → s.leaveHunt k tag = s)

/-! ## Plans and the cut (chapters 3, 6 and 7) -/

/-- The cut of a RUNNING tree with nothing queued or held: what the light supervisor and the enrolment engine answer, and the
window they get. A dark window of the W_dark in force is due in WATCH and HUNT, and in CLEAR and UNRESOLVED each K_dark cuts. A
count that reaches K_call, or a deferred mark, leads to a choice, in a hunt to the deferred mark; any other count rises. The
choice is a PROBE of the HEARD entry heard first, the lower tag of two heard in one round, among those no window record names;
else a CALL where calls are ON; else no window. A window of the W_call in force follows the dark window and gets its record; a
PROBE is owed on its entry and booked for the next frame. CALL_SCHEDULE_DUE and DARK_CADENCE_DUE name a tree's due cut: they
are that cut, and on any other cut do nothing (log entry 3). -/
def Obligations.EngineAndSupervisorAnswer : Prop :=
  ∀ (s : State) (k : TreeId), s.cutTaken = false → s.queue = [] → (∀ p : Port, (s.port p).inProgress = none) →
    (s.tree k).phase = .running → StoresCanonical s →
    let g := (s.tree k).engine
    let l := (s.tree k).light
    let x := (s.tree k).settings
    let hunt := ∃ h : Hunt, l.suspicion = .hunt h
    let reaches := x.kCall ≤ g.count + 1
    let darkDue := l.suspicion = .watch ∨ hunt ∨ x.kDark ≤ l.cadence + 1
    let eligible := fun (tag : Nat) (heard : Round) => ∃ (e : Entry) (f : Heard), (tag, e) ∈ s.treeEntries k ∧
      e.body = .heard f ∧ f.heardRound = heard ∧ ∀ w ∈ g.windows, ∀ x : Serial, w.kind ≠ .probe tag x e.occupied
    ∃ (t : State) (r : PlanRecord), exec .cut s = .next t ∧ (t.tree k).plans = (s.tree k).plans ++ [r] ∧
      (darkDue → r.dark = some x.wDark ∧ (t.tree k).light = { l with cadence := 0, darkAnswer := none } ∧
        exec (.darkCadenceDue k) s = .next t) ∧
      (¬ darkDue → r.dark = none ∧ (t.tree k).light = { l with cadence := l.cadence + 1, darkAnswer := none } ∧
        exec (.darkCadenceDue k) s = .next s) ∧
      ((if g.deferred then ¬ hunt else reaches) → exec (.callScheduleDue k) s = .next t) ∧
      (¬ (if g.deferred then ¬ hunt else reaches) → exec (.callScheduleDue k) s = .next s) ∧
      let engine := fun (count : Nat) (deferred : Bool) (window : Option WindowKind) (record : List WindowRecord)
          (booked : Option (Round × Nat)) =>
        (t.tree k).engine = { g with count := count, deferred := deferred, windows := g.windows ++ record
                                     bookedProbe := booked, chosen := none } ∧
        r.window = window.map fun kind => { kind := kind, opening := r.dark.getD 0, width := x.wCall }
      (g.deferred = true → hunt → engine g.count true none [] g.bookedProbe) ∧
      (g.deferred = false → ¬ reaches → engine (g.count + 1) false none [] g.bookedProbe) ∧
      (g.deferred = false → reaches → hunt → engine 0 true none [] g.bookedProbe) ∧
      (g.deferred = true ∨ reaches → ¬ hunt → (∀ tag heard, ¬ eligible tag heard) →
        (g.calls = false → engine 0 false none [] g.bookedProbe) ∧
        (g.calls = true → engine 0 false (some .call)
          [{ round := s.round + 2, kind := .call, opening := r.dark.getD 0, width := x.wCall }] g.bookedProbe)) ∧
      ∀ (tag : Nat) (heard : Round) (e : Entry), g.deferred = true ∨ reaches → ¬ hunt → eligible tag heard →
        (∀ tag' heard', eligible tag' heard' → tag' ≠ tag →
          laterThan heard heard' = false ∧ (tag' < tag → laterThan heard' heard = true)) →
        s.entry k tag = some e →
        engine 0 false (some (.probe tag))
          [{ round := s.round + 2, kind := .probe tag e.serial e.occupied, opening := r.dark.getD 0, width := x.wCall }]
          (some (s.round + 1, tag)) ∧
        t.entry k tag = some (e.owe .probe)

/-- The stages of a build, each walking its candidates with the capacity left, H the overhead of a new burst. A greeting (A)
and a due poll (C) take one quantum and H or are not given; a committed grant (B) is min(max(need, 1), c), cut short to what is
left, or skipped. Of the candidates with need and peak left, G, each takes its share of the excess E by weight as credit,
limited to what one burst of its room could spend; the walk from the lead pointer (D) grants what credit, need, peak and
capacity allow, spending credit, and the sweep (E) what need, peak and capacity allow, free of credit; a new burst below m
quanta is not given. The lead pointer moves past the walk's first member. With E at 0 or G empty there is no walk. The credit
of a candidate with nothing left to send is 0. The stages run in this order. -/
def Obligations.StagesShareCapacity : Prop :=
  (∀ H : Nat, WalksBy H (fun x => x.payload = 0)
    (fun left x => if x.greeting = true ∧ 1 + H ≤ left then { x with prior := 1 } else x) (stageA H)) ∧
  (∀ H : Nat, WalksBy H (fun x => x.greeting || x.payload = 0)
    (fun left x =>
      let g := min (max x.need 1) x.c
      if x.greeting = false ∧ 0 < x.c then
        if g + H ≤ left then { x with prior := g } else if H + 1 ≤ left then { x with prior := left - H } else x
      else x) (stageB H)) ∧
  ∀ b : BuildSetting,
    WalksBy b.overhead (fun x => x.greeting || 0 < x.c || x.payload = 0)
      (fun left x =>
        let due := x.lastGranted.all fun r => b.poll < (b.target - r).toNat
        if x.greeting = false ∧ x.c = 0 ∧ due ∧ 1 + b.overhead ≤ left then { x with prior := 1, polled := true } else x)
      (stageC b) ∧
    WalksBy b.overhead (fun x => x.extra = 0)
      (fun left x =>
        let o := if x.prior = 0 then b.overhead else 0
        let g := min (min (x.credit / 256 - o) (x.need - x.prior)) (min (x.peak - x.prior) (left - o))
        if 1 ≤ g ∧ ¬ (x.prior = 0 ∧ g < b.minBurst) then { x with extra := g, credit := x.credit - 256 * (g + o) } else x)
      (stageD b) ∧
    WalksBy b.overhead (fun _ => true)
      (fun left x =>
        let had := x.prior + x.extra
        let o := if had = 0 then b.overhead else 0
        let g := min (x.need - had) (min (x.peak - had) (left - o))
        if 1 ≤ g ∧ ¬ (had = 0 ∧ g < b.minBurst) then { x with extra := x.extra + g } else x)
      (stageE b) ∧
    (∀ (lead excess : Nat) (xs : List Cand),
      let settled := xs.map fun x => if x.need ≤ x.prior then { x with credit := 0 } else x
      let members := settled.filter fun x => x.greeting = false ∧ x.prior < x.need ∧ x.prior < x.peak
      (excess = 0 ∨ members = [] → shareExcess b lead excess xs = (settled, lead)) ∧
      (0 < excess → members ≠ [] →
        let weights := (members.map fun x => x.w).sum
        let shared := members.map fun (x : Cand) =>
          { x with credit := min (256 * (x.peak - x.prior + b.overhead)) (x.credit + excess * 256 * x.w / weights) }
        let order := (shared.filter fun x => lead ≤ x.tag) ++ shared.filter fun x => x.tag < lead
        let d := stageD b excess order
        let e := stageE b d.2 d.1
        let r := shareExcess b lead excess xs
        (r.1 = settled.map fun x => (e.1.find? fun y => y.tag = x.tag).getD x) ∧
        ∀ x ∈ order.head?, r.2 = if x.tag = 128 then 1 else x.tag + 1)) ∧
    (∀ (tag : Nat) (e : Entry), e.hushed = false → e.owed.wake = false →
      (∀ f : Active, e.body = .active f → candidateOf tag e = some
        { tag := tag, occupied := e.occupied, greeting := false, c := e.contract.c
          peak := if e.capped then e.contract.c else e.contract.p, w := e.contract.w, need := f.need, credit := f.credit
          lastGranted := f.lastGranted, prior := 0, polled := false, extra := 0 }) ∧
      (e.state = .timed → e.owed.assign = false → ∃ x : Cand, candidateOf tag e = some x ∧ x.tag = tag ∧
        x.occupied = e.occupied ∧ x.greeting = true ∧ x.prior = 0 ∧ x.extra = 0)) ∧
    ∀ (lead capacity : Nat) (xs : List Cand),
      let a := stageA b.overhead capacity xs
      let c := stageB b.overhead a.2 a.1
      let d := stageC b c.2 c.1
      runStages b lead capacity xs = shareExcess b lead d.2 d.1

/-- The plan built for a RUNNING tree: one record, for the round after next, whose windows and grants lie one after another
from quantum 0 within the 1,875 quanta, grants in ascending tag. Each grant holds at least one payload quantum and the
overhead, and goes to an entry of the tree that is not hushed and owes no WAKE: one payload quantum as a GREETING to a TIMED
entry that owes no ASSIGN, or up to its capped peak (and at least a poll) to an ACTIVE one. The payloads are what stages A to E
give in the capacity that the windows leave (StagesShareCapacity), and the lead pointer is theirs. Each ACTIVE candidate's need
falls by its payload, its credit is what the stages leave, and with any payload its last granted round is the plan's. The
record marks each ACTIVE entry IN SERVICE or HUSHED and each FENCED one FENCED. No other entry changes, but for the PROBE owed.
-/
def Obligations.BuiltPlanFits : Prop :=
  ∀ (s : State) (k : TreeId), (s.tree k).phase = .running → (s.tree k).settings.inRange = true → StoresCanonical s →
    (∀ x ∈ s.roster, x.2.contract.c ≤ x.2.contract.p) →
    let t := s.buildPlan k
    let x := (s.tree k).settings
    ∃ r : PlanRecord, (t.tree k).plans = (s.tree k).plans ++ [r] ∧
      r.round = s.round + 2 ∧ r.settling = false ∧ r.fits = true ∧ r.grants.Pairwise (fun a b => a.tag < b.tag) ∧
      (∀ g ∈ r.grants, 1 ≤ g.payload ∧ g.length = g.payload + x.overhead ∧
        ∃ e : Entry, s.entry k g.tag = some e ∧ g.occupied = e.occupied ∧ e.hushed = false ∧ e.owed.wake = false ∧
          ((e.state = .timed ∧ e.owed.assign = false ∧ g.kind = .greeting ∧ g.payload = 1) ∨
            (e.state = .active ∧ g.kind ≠ .greeting ∧
              g.payload ≤ max 1 (if e.capped then e.contract.c else e.contract.p)))) ∧
      (let windows := r.dark.getD 0 + match r.window with
        | some w => w.width
        | none => 0
      let cands := (s.treeEntries k).filterMap fun y => candidateOf y.1 y.2
      let stages := runStages { overhead := x.overhead, minBurst := x.minBurst, poll := x.poll, target := s.round + 2 }
        (s.tree k).lead (1875 - windows) cands
      (r.grants.map fun g => (g.tag, g.payload, g.kind)) =
          ((stages.1.filter fun y => 0 < y.prior + y.extra).map fun y => (y.tag, y.prior + y.extra,
            if y.greeting then GrantKind.greeting else if y.polled ∧ y.extra = 0 then .poll else .data)) ∧
        (t.tree k).lead = stages.2 ∧
        ∀ y ∈ stages.1, ∀ (e : Entry) (f : Active), s.entry k y.tag = some e → e.body = .active f →
          t.entry k y.tag = some { e with body := .active { f with
            need := f.need - (y.prior + y.extra), credit := y.credit
            lastGranted := if 0 < y.prior + y.extra then some (s.round + 2) else f.lastGranted } }) ∧
      (∀ tag : Nat, tagOk tag = true →
        (s.entry k tag = none → Store.read tag r.marks = none ∧ t.entry k tag = none) ∧
        ∀ e : Entry, s.entry k tag = some e →
          Store.read tag r.marks =
            (if e.state = .active then some (if e.hushed then .hushed else .inService)
              else if e.state = .fenced then some .fenced else none) ∧
          (e.state ≠ .active ∨ e.hushed = true ∨ e.owed.wake = true →
            t.entry k tag = some e ∨ e.state = .heard ∧ t.entry k tag = some (e.owe .probe))) ∧
      ∀ (j : TreeId) (tag : Nat), tagOk tag = true → j ≠ k → t.entry j tag = s.entry j tag ∧ t.tree j = s.tree j

/-- The cut of a round. The pass takes the URGENT entries of the queue in queue order, then the ORDINARY ones in queue order:
each is handed over on what those before it left, and APPLIED is raised at its origin port under its key tree (none for SWITCH
BAND and CLOSE of ALL), with its outcome and a void count of 1 where it was void. With no request held, the plans are built on
what the whole pass left, in ascending tree (the order among trees is log entry 5): the queue is empty, each SETTLING tree gets
a settling plan of one dark window of its W_dark in force, with the entry marks as they stand after the pass (FENCED among
them, so that fenced rounds count), its entries stay, and its settling count rises to at most 16; each RUNNING tree gets a full
plan, both for the round after next, and DOWN and FAULTED trees get none. A second CUT in one round does nothing (log entry 4).
-/
def Obligations.CutAppliesAndBuilds : Prop :=
  (∀ s : State,
    let handed := fun (q : ChangeEntry) (rest : List ChangeEntry) =>
      let r := { s with queue := rest }.applyChange q
      let tree := match q.change with
        | .contract k _ _ => some k
        | .treeSetting k _ _ => some k
        | .withdraw k _ => some k
        | .fence k _ => some k
        | .release k _ => some k
        | .uncap k _ => some k
        | .switchBand _ => none
        | .closeInterval k => k
      r.state.raiseAt q.origin tree (.applied q.change q.roundTaken r.carriedOut (if r.carriedOut then 0 else 1))
    let urgent := fun (q : ChangeEntry) => (∃ k tag, q.change = .fence k tag) ∨ ∃ k tag, q.change = .release k tag
    (s.queue = [] → s.pass = s) ∧
    (∀ (front back : List ChangeEntry) (q : ChangeEntry), s.queue = front ++ q :: back → urgent q →
      (∀ x ∈ front, ¬ urgent x) → s.pass = (handed q (front ++ back)).pass) ∧
    (∀ (q : ChangeEntry) (rest : List ChangeEntry), s.queue = q :: rest → (∀ x ∈ s.queue, ¬ urgent x) →
      s.pass = (handed q rest).pass)) ∧
  ∀ s : State,
    (s.cutTaken = true → exec .cut s = .next s) ∧
    (s.cutTaken = false → (∀ p : Port, (s.port p).inProgress = none) →
      ∃ t : State, exec .cut s = .next t ∧ t = allFour.foldl State.buildPlan { s with cutTaken := true }.pass ∧
        t.cutTaken = true ∧ t.round = s.round ∧ t.queue = [] ∧
        t.openMode = s.openMode ∧ t.admissions = s.admissions ∧ t.upBuffer = s.upBuffer ∧
        t.routes = s.routes ∧
        ∀ k : TreeId, (t.tree k).phase = (s.tree k).phase ∧ (t.tree k).framer = (s.tree k).framer ∧
          ((s.tree k).phase = .down ∨ (s.tree k).phase = .faulted → (t.tree k).plans = (s.tree k).plans) ∧
          ((s.tree k).phase = .settling →
            (t.tree k).settlingCount = min 16 ((s.tree k).settlingCount + 1) ∧
            ∃ r : PlanRecord, (t.tree k).plans = (s.tree k).plans ++ [r] ∧ r.round = s.round + 2 ∧
              r.settling = true ∧ r.dark = some (t.tree k).settings.wDark ∧ r.window = none ∧ r.grants = [] ∧
              ((s.tree k).settlingCount < 16 → r.settlingNo = (s.tree k).settlingCount + 1) ∧
              (16 ≤ (s.tree k).settlingCount → r.settlingNo = 0) ∧
              (StoresCanonical s → ∀ tag : Nat, tagOk tag = true →
                let e := ({ s with cutTaken := true } : State).pass.entry k tag
                t.entry k tag = e ∧ Store.read tag r.marks = e.bind fun e =>
                  if e.state = .active then some (if e.hushed then .hushed else .inService)
                  else if e.state = .fenced then some .fenced else none)) ∧
          ((s.tree k).phase = .running →
            ∃ r : PlanRecord, (t.tree k).plans = (s.tree k).plans ++ [r] ∧ r.round = s.round + 2 ∧
              r.settling = false))

/-- The change requests. One that passes its checks enters the queue of an open port behind those held and is answered STAGED;
at a port that is stalled or full it is held in the in-progress slot, unanswered, with the round it was taken in. FENCE and
RELEASE pass for a TIMED, ACTIVE or SILENT entry, or a FENCED one without the trial mark; UNCAP, SET CONTRACT and WITHDRAW for
any entry that is not LEAVING; SET CONTRACT where the booking admits it (else OVERBOOK), and the entry's booked commitment then
takes the greatest rate waiting for it; WITHDRAW books a final place, in the queue or held (else JOURNAL_SHORT). The booked
commitment counts the CONTRACTs queued for the occupant as log entry 19 reads them. The checks of the change requests in their
order: a tree, tag, contract, band or CLOSE tree out of range is BAD_ARGUMENT; a VACANT slot NO_SUCH_HOME; an entry in a state
that refuses the request WRONG_STATE (LEAVING; for FENCE and RELEASE also HEARD, and FENCED with the trial mark). A refused
request changes nothing. -/
def Obligations.ChangeRequests : Prop :=
  (∀ (s : State) (q : Byte),
     let goes := fun (x : State) (i : Instr) (p : Port) (c : Change) =>
       PortFree s p →
         (QueueOpen s p → exec i s = .next ({ x with queue := queueWith s p c }.reply p q .staged .nothing)) ∧
         (¬ QueueOpen s p → exec i s = .next (heldWith x p q c))
     (∀ (k : TreeId) (tag : Nat) (e : Entry), tagOk tag = true → s.entry k tag = some e →
       (e.state ≠ .heard → e.state ≠ .leaving → e.trial = false →
         goes s (.fence .supervisor q k.val tag) .supervisor (.fence k tag) ∧
         goes s (.release .supervisor q k.val tag) .supervisor (.release k tag)) ∧
       (e.state ≠ .leaving → goes s (.uncap .accounting q k.val tag) .accounting (.uncap k tag)) ∧
       (e.state ≠ .leaving → s.journal.records.length + s.journal.booked < 2048 →
         goes { s with journal := { s.journal with booked := s.journal.booked + 1 } }
           (.withdraw .line q k.val tag) .line (.withdraw k tag)) ∧
       (e.state ≠ .leaving → 2048 ≤ s.journal.records.length + s.journal.booked → PortFree s .line →
         exec (.withdraw .line q k.val tag) s = .next (s.reply .line q .journalShort .nothing)) ∧
       ∀ c p w : Nat, contractOk c p w = true → e.state ≠ .leaving → PortFree s .accounting →
         let change := Change.contract k tag { c := c, p := p, w := w }
         let fits := s.bookingIfContract k tag e c + (s.tree k).bookedCall + (s.tree k).bookedDark ≤ 1875
         (fits → QueueOpen s .accounting →
           ∃ t : State,
             exec (.setContract .accounting q k.val tag c p w) s = .next (t.reply .accounting q .staged .nothing) ∧
             t = { s with queue := queueWith s .accounting change, roster := t.roster } ∧
             t.entry k tag = some { e with
               booked := bookedFor e.contract.c (queuedRates (queueWith s .accounting change) k tag e.occupied) } ∧
             ∀ (j : TreeId) (tag' : Nat), tagOk tag' = true → j ≠ k ∨ tag' ≠ tag → t.entry j tag' = s.entry j tag') ∧
         (fits → ¬ QueueOpen s .accounting →
           exec (.setContract .accounting q k.val tag c p w) s = .next (heldWith s .accounting q change)) ∧
         (¬ fits →
           exec (.setContract .accounting q k.val tag c p w) s = .next (s.reply .accounting q .overbook .nothing))) ∧
     (∀ b : BandId, goes s (.switchBand .accounting q b.val) .accounting (.switchBand b)) ∧
     (∀ k : TreeId, goes s (.closeInterval .accounting q k.val) .accounting (.closeInterval (some k))) ∧
     goes s (.closeInterval .accounting q 255) .accounting (.closeInterval none)) ∧
  (∀ (s : State) (q : Byte) (n tag c p w : Nat),
     let badPlace := 4 ≤ n ∨ tag = 0 ∨ 128 < tag
     let refused := fun (i : Instr) (port : Port) (a : Status) => exec i s = .next (s.reply port q a .nothing)
     (PortFree s .supervisor →
       (badPlace → refused (.fence .supervisor q n tag) .supervisor .badArgument ∧
         refused (.release .supervisor q n tag) .supervisor .badArgument) ∧
       ∀ k : TreeId, n = k.val → tagOk tag = true →
         (s.entry k tag = none → refused (.fence .supervisor q n tag) .supervisor .noSuchHome ∧
           refused (.release .supervisor q n tag) .supervisor .noSuchHome) ∧
         ∀ e : Entry, s.entry k tag = some e → e.state = .heard ∨ e.state = .leaving ∨ e.trial = true →
           refused (.fence .supervisor q n tag) .supervisor .wrongState ∧
           refused (.release .supervisor q n tag) .supervisor .wrongState) ∧
     (PortFree s .accounting →
       (badPlace → refused (.uncap .accounting q n tag) .accounting .badArgument) ∧
       (badPlace ∨ contractOk c p w = false → refused (.setContract .accounting q n tag c p w) .accounting .badArgument) ∧
       (4 ≤ n → refused (.switchBand .accounting q n) .accounting .badArgument ∧
         (n ≠ 255 → refused (.closeInterval .accounting q n) .accounting .badArgument)) ∧
       ∀ k : TreeId, n = k.val → tagOk tag = true →
         (s.entry k tag = none → refused (.uncap .accounting q n tag) .accounting .noSuchHome ∧
           (contractOk c p w = true → refused (.setContract .accounting q n tag c p w) .accounting .noSuchHome)) ∧
         ∀ e : Entry, s.entry k tag = some e → e.state = .leaving →
           refused (.uncap .accounting q n tag) .accounting .wrongState ∧
           (contractOk c p w = true → refused (.setContract .accounting q n tag c p w) .accounting .wrongState)) ∧
     (PortFree s .line →
       (badPlace → refused (.withdraw .line q n tag) .line .badArgument) ∧
       ∀ k : TreeId, n = k.val → tagOk tag = true →
         (s.entry k tag = none → refused (.withdraw .line q n tag) .line .noSuchHome) ∧
         ∀ e : Entry, s.entry k tag = some e → e.state = .leaving →
           refused (.withdraw .line q n tag) .line .wrongState))

/-- A request that a port holds at a cut, with nothing queued and no other port holding one. A port that is not stalled and has
an allocation lets it enter with the round it was taken in, answered STAGED; a CONTRACT or a W_call or W_dark that the booking
of that instant admits sets its booked value with it, one it does not admit is OVERBOOK and discarded; a CONTRACT whose slot is
VACANT or has a later occupant enters unchecked. At any other port it is held on, or, at its hold limit, answered HELD_TOO_LONG
and discarded, a WITHDRAW releasing its final place. Once its slot is empty the waiting request is taken, as on arrival; then
the plans are built (the order of the events of a cut is log entry 5). HELD_REQUEST_ENTRY and HELD_TOO_LONG name these two ends
of a held request: they are that cut, and on any other do nothing (log entry 3). Two held requests are offered in the order
they were taken. -/
def Obligations.HeldRequestAtCut : Prop :=
  (∀ (s : State) (p : Port) (h : Held),
    s.cutTaken = false → s.queue = [] → (s.port p).inProgress = some h → (∀ j : Port, j ≠ p → (s.port j).inProgress = none) →
    h.ticket < s.tickets → (s.port p).holdLimit ≠ some 0 → StoresCanonical s →
    let cut : State := { s with cutTaken := true }
    let freed := cut.setPort p { s.port p with inProgress := none }
    let ended := fun (u : State) => match (s.port p).waiting with
      | none => u
      | some a => (u.setPort p { u.port p with waiting := none }).take p a
    let built := fun (u : State) =>
      (.next (allFour.foldl State.buildPlan u) : Host.Outcome State Fault Refusal)
    let q : ChangeEntry := { origin := p, change := h.change, roundTaken := h.roundTaken, voided := false }
    let queued : State := { freed with queue := [q] }
    let isOpen := (s.port p).stalled = false ∧ 0 < (s.port p).allocation
    let leaves := fun (u : State) => exec .cut s = built (ended u) ∧ exec (.heldRequestEntry p) s = exec .cut s ∧
      exec (.heldTooLong p) s = .next s
    let enters := fun (u : State) => leaves (u.reply p h.seq .staged .nothing)
    let overbook := leaves (freed.reply p h.seq .overbook .nothing)
    (isOpen →
      ((∀ k tag v, h.change ≠ .contract k tag v) → (∀ k n v, h.change ≠ .treeSetting k n v) → enters queued) ∧
      (∀ (k : TreeId) (name : SettingName) (v : Nat), h.change = .treeSetting k name v →
        (name ∈ [SettingName.minBurst, .kCall, .kDark, .poll, .silence, .defaultPeak] → enters queued) ∧
        (name = .wCall →
          if s.bookingSum k + v + (s.tree k).bookedDark ≤ 1875 then
            enters (queued.setTree k { s.tree k with bookedCall := v }) else overbook) ∧
        (name = .wDark →
          if s.bookingSum k + (s.tree k).bookedCall + v ≤ 1875 then
            enters (queued.setTree k { s.tree k with bookedDark := v }) else overbook)) ∧
      ∀ (k : TreeId) (tag : Nat) (v : Contract), h.change = .contract k tag v → tagOk tag = true →
        (s.entry k tag = none → enters queued) ∧
        ∀ e : Entry, s.entry k tag = some e →
          (laterThan e.occupied h.roundTaken = true →
            enters (queued.setEntry k tag { e with booked := e.contract.c })) ∧
          (laterThan e.occupied h.roundTaken = false →
            let H := (s.tree k).settings.overhead
            let term := fun (n : Nat) => if 0 < n then n + H else 0
            let others := s.bookingSum k - term e.booked
            if others + term (max e.contract.c v.c) + (s.tree k).bookedCall + (s.tree k).bookedDark ≤ 1875 then
              enters (queued.setEntry k tag { e with booked := max e.contract.c v.c }) else overbook)) ∧
    (¬ isOpen → exec (.heldRequestEntry p) s = .next s ∧
      ((s.port p).holdLimit = none ∨ (∃ limit, (s.port p).holdLimit = some limit ∧ (s.round - h.roundTaken).toNat < limit) →
        exec .cut s = built cut ∧ exec (.heldTooLong p) s = .next s) ∧
      ∀ limit : Nat, (s.port p).holdLimit = some limit → limit ≤ (s.round - h.roundTaken).toNat →
        exec (.heldTooLong p) s = exec .cut s ∧
        let released : State := { freed with journal := { s.journal with booked := s.journal.booked - 1 } }
        ((∀ k tag, h.change ≠ .withdraw k tag) →
          exec .cut s = built (ended (freed.reply p h.seq .heldTooLong .nothing))) ∧
        ((∃ k tag, h.change = .withdraw k tag) →
          exec .cut s = built (ended (released.reply p h.seq .heldTooLong .nothing))))) ∧
  ∀ (s t : State) (p p' : Port) (h h' : Held), s.cutTaken = false → s.queue = [] →
    p ≠ p' → (s.port p).inProgress = some h → (s.port p').inProgress = some h' →
    (∀ j : Port, j ≠ p → j ≠ p' → (s.port j).inProgress = none) → (∀ j : Port, (s.port j).waiting = none) →
    h.ticket < h'.ticket → (s.port p).stalled = false → 0 < (s.port p).allocation → (s.port p').stalled = false →
    0 < (s.port p').allocation →
    (∀ k tag v, h.change ≠ .contract k tag v ∧ h'.change ≠ .contract k tag v) →
    (∀ k n v, h.change ≠ .treeSetting k n v ∧ h'.change ≠ .treeSetting k n v) → exec .cut s = .next t →
    t.queue = [{ origin := p, change := h.change, roundTaken := h.roundTaken, voided := false },
      { origin := p', change := h'.change, roundTaken := h'.roundTaken, voided := false }]

/-- A FENCE or RELEASE handed over at a cut, for the occupant it was taken for. FENCE makes a TIMED, ACTIVE or SILENT entry
FENCED with FENCE owed, an ACTIVE one keeping need, credit, last granted round and history, a TIMED one's closed meters
opening, partial, at this cut, and a suspect leaves the hunt; it owes FENCE again to a FENCED one; it is void, and changes
nothing, for HEARD, LEAVING, trial-fenced, VACANT and a later occupant, or where a WITHDRAW of the pass has voided it. RELEASE
makes a FENCED entry without the trial mark of a RUNNING tree ACTIVE with RELEASE owed, and is void elsewhere. No other slot
changes but by the hunt. -/
def Obligations.FenceAndReleaseApplied : Prop :=
  ∀ (s : State) (q : ChangeEntry) (k : TreeId) (tag : Nat), tagOk tag = true → StoresCanonical s →
    let isVoid := (s.applyChange q).carriedOut = false ∧ (s.applyChange q).state = s
    let becomes := fun (e : Entry) => (s.applyChange q).carriedOut = true ∧ (s.applyChange q).state = s.setEntry k tag e
    let leaves := fun (u : State) (e : Entry) => (s.applyChange q).carriedOut = true ∧
      (s.applyChange q).state = (u.setEntry k tag e).leaveHunt k tag
    let fenceOwed := fun (o : Owed) => if o.drop then o else { o with fence := true, release := false }
    let releaseOwed := fun (o : Owed) => if o.drop then o else { o with release := true, fence := false }
    let blank := fun (d : Nat) (hushed : Bool) => Body.fenced
      { e := d, need := 0, credit := 0, lastGranted := none, history := [], hushed := hushed, trial := false }
    (q.change = .fence k tag ∨ q.change = .release k tag →
      (q.voided = true ∨ s.entry k tag = none → isVoid) ∧
      ∀ e : Entry, s.entry k tag = some e → laterThan e.occupied q.roundTaken = true → isVoid) ∧
    ∀ e : Entry, q.voided = false → s.entry k tag = some e → laterThan e.occupied q.roundTaken = false →
      (q.change = .fence k tag →
        (∀ f : Active, e.body = .active f → leaves s { e with
          owed := fenceOwed e.owed
          body := .fenced { e := f.e, need := f.need, credit := f.credit, lastGranted := f.lastGranted
                            history := f.history, hushed := f.hushed, trial := false } }) ∧
        (∀ f : Timed, e.body = .timed f →
          (s.meterOf k tag ≠ none → leaves s { e with owed := fenceOwed e.owed, body := blank f.e f.hushed }) ∧
          (s.meterOf k tag = none →
            let opened : Meters :=
              { openedCut := s.round, up := Quad.all 0, down := Quad.all 0, withheld := Quad.all 0, granted := 0
                inService := 0, hushed := 0, fenced := 0, partialSpan := true, saturated := false, cappedDuring := false }
            leaves { s with meters := Store.write (k.val * 128 + (tag - 1)) opened s.meters }
              { e with owed := fenceOwed e.owed, body := blank f.e f.hushed })) ∧
        (∀ f : Silent, e.body = .silent f → leaves s { e with owed := fenceOwed e.owed, body := blank f.e f.hushed }) ∧
        (∀ f : Fenced, e.body = .fenced f → f.trial = false → becomes { e with owed := fenceOwed e.owed }) ∧
        (e.state = .heard ∨ e.state = .leaving ∨ e.trial = true → isVoid)) ∧
      (q.change = .release k tag →
        (∀ f : Fenced, e.body = .fenced f → f.trial = false → (s.tree k).phase = .running → becomes { e with
          owed := releaseOwed e.owed
          body := .active { e := f.e, missCount := 0, need := f.need, credit := f.credit, lastGranted := f.lastGranted
                            history := [], hushed := f.hushed } }) ∧
        (e.state ≠ .fenced ∨ e.trial = true ∨ (s.tree k).phase ≠ .running → isVoid))

/-- The other changes handed over at a cut. SWITCH BAND and TREE SETTING put their values in force, and CLOSE closes its tree,
or all four in ascending order; they are never void. For the occupant it was taken for, CONTRACT puts the contract in force
unless the entry is LEAVING; UNCAP clears the capped mark; WITHDRAW makes an entry that is not LEAVING so, with DROP alone owed
and the e it held (none for a HEARD entry without one, log entry 13), voids every later change of the slot, so that its booked
commitment is its c, releases its booked place, after a FINAL record where its meters are open, which closes them (a
JOURNAL_HIGH it raises shows the booked count after the release, log entry 24, and is raised at every crossing of the mark, log
entry 32), and a suspect leaves the hunt after it (log entry 37). A change that is void changes nothing, but that a
WITHDRAW releases its place and a CONTRACT returns the booked commitment to the rates still queued for the occupant (log entry
19). -/
def Obligations.OtherChangesApplied : Prop :=
  ∀ (s : State) (q : ChangeEntry), StoresCanonical s →
    let t := (s.applyChange q).state
    let carried := (s.applyChange q).carriedOut = true
    let isVoid := (s.applyChange q).carriedOut = false
    let released : State := { s with journal := { s.journal with booked := s.journal.booked - 1 } }
    (∀ b : BandId, q.change = .switchBand b → t = { s with band := b } ∧ carried) ∧
    (∀ (k : TreeId) (name : SettingName) (v : Nat), q.change = .treeSetting k name v →
      t = s.setTree k { s.tree k with settings := (s.tree k).settings.put name v } ∧ carried) ∧
    (∀ k : TreeId, q.change = .closeInterval (some k) → t = s.closeTree k ∧ carried) ∧
    (q.change = .closeInterval none → t = (((s.closeTree 0).closeTree 1).closeTree 2).closeTree 3 ∧ carried) ∧
    ∀ (k : TreeId) (tag : Nat), tagOk tag = true →
      let rebooked := fun (e : Entry) => { e with
        booked := bookedFor e.contract.c (queuedRates s.queue k tag e.occupied) }
      (s.entry k tag = none →
        (q.change = .uncap k tag → t = s ∧ isVoid) ∧ (∀ v : Contract, q.change = .contract k tag v → t = s ∧ isVoid) ∧
        (q.change = .withdraw k tag → t = released ∧ isVoid)) ∧
      ∀ e : Entry, s.entry k tag = some e →
        (q.voided = true ∨ laterThan e.occupied q.roundTaken = true →
          (q.change = .uncap k tag → t = s ∧ isVoid) ∧
          (∀ v : Contract, q.change = .contract k tag v → t = s.setEntry k tag (rebooked e) ∧ isVoid) ∧
          (q.change = .withdraw k tag → t = released ∧ isVoid)) ∧
        (q.voided = false → laterThan e.occupied q.roundTaken = false →
          (q.change = .uncap k tag → t = s.setEntry k tag { e with capped := false } ∧ carried) ∧
          (∀ v : Contract, q.change = .contract k tag v →
            (e.state ≠ .leaving → t = s.setEntry k tag (rebooked { e with contract := v }) ∧ carried) ∧
            (e.state = .leaving → t = s.setEntry k tag (rebooked e) ∧ isVoid)) ∧
          (q.change = .withdraw k tag →
            (e.state = .leaving → t = released ∧ isVoid) ∧
            (e.state ≠ .leaving → carried ∧ ∃ u : State, t = u.leaveHunt k tag ∧
              u.entry k tag = some { e with
                booked := e.contract.c, owed := if e.owed.drop then e.owed else { Owed.none with drop := true }
                body := .leaving e.delay } ∧
              (∀ (j : TreeId) (tag' : Nat), tagOk tag' = true → j ≠ k ∨ tag' ≠ tag → u.entry j tag' = s.entry j tag') ∧
              u.queue = s.queue.map (fun x =>
                if x.change.names k tag then { x with voided := true } else x) ∧
              u.trees = s.trees ∧ u.journal.booked = s.journal.booked - 1 ∧
              (s.meterOf k tag = none →
                u.journal.records = s.journal.records ∧ u.meters = s.meters ∧ u.watches = s.watches ∧
                  u.ports = s.ports) ∧
              ∀ m : Meters, s.meterOf k tag = some m →
                u.meters = Store.erase (k.val * 128 + (tag - 1)) s.meters ∧
                u.watches = s.watches.map (fun x =>
                  if x.2.tree = k ∧ x.2.tag = tag then (x.1, { x.2 with fired := false }) else x) ∧
                u.journal.records = s.journal.records ++
                  [{ final := true, tree := k, tag := tag, serial := e.serial, interval := s.journal.intervals.get k
                     closedCut := s.round, meters := m, contract := e.contract }] ∧
                let held := s.journal.records.length
                (held < s.journal.mark ∧ s.journal.mark ≤ held + 1 → u.ports =
                  (s.raiseKeyless (.journalHigh (held + 1) (s.journal.booked - 1) s.journal.mark s.round)).ports) ∧
                (s.journal.mark ≤ held ∨ held + 1 < s.journal.mark → u.ports = s.ports))))

/-! ## Metering and the journal (chapters 9 and 10) -/

/-- Bytes that count for a slot with open meters: the up or down bytes of the current band rise by them, to at most 2^48 - 1,
where the saturated mark is set; then every ARMED watch of the slot whose selected sum is at least its threshold becomes FIRED
and raises WATCH_FIRED, in ascending number (log entry 31), and a THROTTLE among them sets the entry's capped mark and the
slot's capped-during mark. Other watches, slots and registers stay. With closed meters nothing counts, and no watch fires. -/
def Obligations.CountsFireWatches : Prop :=
  ∀ (s : State) (k : TreeId) (tag n : Nat), StoresCanonical s → tagOk tag = true →
    let slot := k.val * 128 + (tag - 1)
    let fires := fun (m : Meters) => s.watches.filter fun x =>
      x.2.tree = k ∧ x.2.tag = tag ∧ x.2.fired = false ∧ x.2.threshold ≤ x.2.selectedSum (some m)
    let after := fun (m : Meters) =>
      let serial := match s.entry k tag with
        | some e => e.serial
        | none => 0
      let throttled := (fires m).any fun x => x.2.throttle
      { (fires m).foldl (fun (u : State) x => u.raise k
          (.watchFired x.1 k tag serial (x.2.selectedSum (some m)) x.2.threshold x.2.throttle)) s with
        meters := s.meters.map fun x =>
          if x.1 = slot then (x.1, { m with cappedDuring := m.cappedDuring || throttled }) else x
        watches := s.watches.map fun x => if x ∈ fires m then (x.1, { x.2 with fired := true }) else x
        roster := s.roster.map fun x => if x.1 = slot ∧ throttled = true then (x.1, { x.2 with capped := true }) else x }
    let plus := fun (q : Quad Nat) => q.set s.band (min 281474976710655 (q.get s.band + n))
    let fills := fun (m : Meters) (q : Quad Nat) => m.saturated || decide (281474976710655 < q.get s.band + n)
    (∀ m : Meters, s.meterOf k tag = some m →
      s.countUp k tag n = after { m with up := plus m.up, saturated := fills m m.up } ∧
      s.countDown k tag n = after { m with down := plus m.down, saturated := fills m m.down }) ∧
    (s.meterOf k tag = none → (∀ x ∈ s.watches, 1 ≤ x.2.threshold) → s.countUp k tag n = s ∧ s.countDown k tag n = s)

/-- An interval close of one tree. Its slots with open meters are taken in ascending tag, those opened at this cut left out:
each gets an INTERVAL record while held plus booked is below 1,984, and its meters start again from 0 at this cut, not partial,
its capped mark cleared and its FIRED watches ARMED; from there on each is carried unchanged. The interval number rises by 1,
and INTERVAL_CLOSED is raised with the number that was closed, the counts of slots written and carried, and the held and booked
counts after it. Where the records bring the held count from below the mark to it, JOURNAL_HIGH is raised once, at the record
that reaches the mark, also where SET JOURNAL MARK had lifted the mark (log entry 32). -/
def Obligations.IntervalClosed : Prop :=
  ∀ (s : State) (k : TreeId), StoresCanonical s →
    let slotsOf := (List.range' 1 128).filter fun tag => match s.meterOf k tag, s.entry k tag with
      | some m, some _ => m.openedCut ≠ s.round
      | _, _ => false
    let held := s.journal.records.length
    let booked := s.journal.booked
    let written := slotsOf.take (1984 - (held + booked))
    let isWritten := fun (slot : Nat) => slot / 128 = k.val ∧ slot % 128 + 1 ∈ written
    let number := s.journal.intervals.get k
    ∃ u : State,
      s.closeTree k = u.raise k (.intervalClosed k number s.round written.length (slotsOf.length - written.length)
        (held + written.length) booked) ∧
      u.journal.booked = booked ∧ u.journal.mark = s.journal.mark ∧
      u.journal.intervals = s.journal.intervals.set k (number + 1) ∧
      u.journal.records.take held = s.journal.records ∧ u.journal.records.length = held + written.length ∧
      (∀ (i tag : Nat) (m : Meters) (e : Entry), written[i]? = some tag → s.meterOf k tag = some m →
        s.entry k tag = some e → u.journal.records[held + i]? = some
          { final := false, tree := k, tag := tag, serial := e.serial, interval := number
            closedCut := s.round, meters := m, contract := e.contract }) ∧
      u.meters = s.meters.map (fun x => if isWritten x.1 then (x.1,
        { openedCut := s.round, up := Quad.all 0, down := Quad.all 0, withheld := Quad.all 0, granted := 0
          inService := 0, hushed := 0, fenced := 0, partialSpan := false, saturated := false
          cappedDuring := false }) else x) ∧
      u.roster = s.roster.map (fun x => if isWritten x.1 then (x.1, { x.2 with capped := false }) else x) ∧
      u.watches = s.watches.map (fun x =>
        if x.2.tree = k ∧ x.2.tag ∈ written then (x.1, { x.2 with fired := false }) else x) ∧
      u = { s with journal := u.journal, meters := u.meters, roster := u.roster, watches := u.watches, ports := u.ports } ∧
      (held < s.journal.mark → s.journal.mark ≤ held + written.length →
        u.ports = (s.raiseKeyless (.journalHigh s.journal.mark booked s.journal.mark s.round)).ports) ∧
      (s.journal.mark ≤ held ∨ held + written.length < s.journal.mark → u.ports = s.ports)

/-- TAKE RECORDS hands over and removes the oldest records, up to a count of 1 to 16, with the held and booked counts after it;
SET JOURNAL MARK takes a mark of at most 1,984 and answers the held count, raising no notice; another argument is BAD_ARGUMENT.
An interval close reaches a slot with open meters: meters opened at this cut stay as they are; else, with held plus booked
below 1,984, an INTERVAL record is written and the meters start again from 0 at this cut, not partial, the capped mark cleared;
at 1,984 or above the slot is carried unchanged. -/
def Obligations.JournalKept : Prop :=
  (∀ (s : State) (q : Byte) (n : Nat), PortFree s .accounting →
    (1 ≤ n → n ≤ 16 →
      exec (.takeRecords .accounting q n) s =
        .next ({ s with journal := { s.journal with records := s.journal.records.drop n } }.reply .accounting q .done
          (.records (s.journal.records.take n) (s.journal.records.drop n).length s.journal.booked))) ∧
    (n = 0 ∨ 16 < n → exec (.takeRecords .accounting q n) s = .next (s.reply .accounting q .badArgument .nothing)) ∧
    (n ≤ 1984 →
      exec (.setJournalMark .accounting q n) s =
        .next ({ s with journal := { s.journal with mark := n } }.reply .accounting q .done
          (.heldCount s.journal.records.length))) ∧
    (1984 < n → exec (.setJournalMark .accounting q n) s = .next (s.reply .accounting q .badArgument .nothing))) ∧
  ∀ (s : State) (tally : CloseTally) (k : TreeId) (tag : Nat) (m : Meters) (e : Entry),
    s.meterOf k tag = some m → s.entry k tag = some e →
    (m.openedCut = s.round → s.closeSlot tally k tag = (s, tally)) ∧
    (m.openedCut ≠ s.round → s.journal.records.length + s.journal.booked < 1984 →
      ∃ t : State, s.closeSlot tally k tag = (t, { tally with written := tally.written + 1 }) ∧
        t.journal = { s.journal with records := s.journal.records ++
          [{ final := false, tree := k, tag := tag, serial := e.serial, interval := s.journal.intervals.get k
             closedCut := s.round, meters := m, contract := e.contract }] } ∧
        t.meterOf k tag = some { openedCut := s.round, up := Quad.all 0, down := Quad.all 0, withheld := Quad.all 0,
                                 granted := 0, inService := 0, hushed := 0, fenced := 0, partialSpan := false,
                                 saturated := false, cappedDuring := false } ∧
        t.entry k tag = some { e with capped := false } ∧
        (∀ x ∈ t.watches, x.2.tree = k → x.2.tag = tag → x.2.fired = false) ∧
        t.queue = s.queue ∧ t.band = s.band) ∧
    (m.openedCut ≠ s.round → 1984 ≤ s.journal.records.length + s.journal.booked →
      s.closeSlot tally k tag = (s, { tally with carried := tally.carried + 1 }))

/-- SET WATCH arms a watch on a slot that is not VACANT and tests it at once: with its selected sum below the threshold it
stays ARMED; with a sum at or above it, it is FIRED and WATCH_FIRED is raised, and a THROTTLE sets the entry's capped mark and
the slot's capped-during mark. The answer is the sum and whether it fired. A VACANT slot is NO_SUCH_HOME and an argument out of
range BAD_ARGUMENT. CLEAR WATCH empties a watch of 0 to 7, whatever it held. Nothing else changes. -/
def Obligations.WatchesSetAndCleared : Prop :=
  ∀ (s : State) (q : Byte) (n : Nat), PortFree s .accounting →
    (∀ (k : TreeId) (tag : Nat) (dir : Direction) (band : Option BandId) (th : Nat) (throttle : Bool) (a b c : Nat),
      n < 8 → tagOk tag = true → 1 ≤ th → th ≤ 281474976710655 →
      (a, dir) ∈ [(1, Direction.up), (2, .down), (3, .both)] →
      (b = 255 ∧ band = none ∨ ∃ i : BandId, b = i.val ∧ band = some i) →
      (c, throttle) ∈ [(1, false), (2, true)] →
      let w : Watch := { tree := k, tag := tag, direction := dir, band := band, threshold := th, throttle := throttle
                         fired := false }
      let sum := w.selectedSum (s.meterOf k tag)
      (s.entry k tag = none →
        exec (.setWatch .accounting q n k.val tag a b th c) s = .next (s.reply .accounting q .noSuchHome .nothing)) ∧
      ∀ e : Entry, s.entry k tag = some e →
        (sum < th → exec (.setWatch .accounting q n k.val tag a b th c) s =
          .next ({ s with watches := Store.write n w s.watches }.reply .accounting q .done (.watchSet sum false))) ∧
        (th ≤ sum →
          let isThrottled := fun (slot : Nat) => slot = k.val * 128 + (tag - 1) ∧ throttle = true
          let fired : State := { s.raise k (.watchFired n k tag e.serial sum th throttle) with
            watches := Store.write n { w with fired := true } s.watches
            roster := s.roster.map fun x => if isThrottled x.1 then (x.1, { x.2 with capped := true }) else x
            meters := s.meters.map fun x => if isThrottled x.1 then (x.1, { x.2 with cappedDuring := true }) else x }
          exec (.setWatch .accounting q n k.val tag a b th c) s =
            .next (fired.reply .accounting q .done (.watchSet sum true)))) ∧
    (∀ tree tag a b th c : Nat,
      8 ≤ n ∨ 4 ≤ tree ∨ tag = 0 ∨ 128 < tag ∨ a = 0 ∨ 3 < a ∨ (4 ≤ b ∧ b ≠ 255) ∨ th = 0 ∨ 281474976710655 < th ∨
        c = 0 ∨ 2 < c →
      exec (.setWatch .accounting q n tree tag a b th c) s = .next (s.reply .accounting q .badArgument .nothing)) ∧
    (n < 8 → exec (.clearWatch .accounting q n) s =
      .next ({ s with watches := Store.erase n s.watches }.reply .accounting q .done .nothing)) ∧
    (8 ≤ n → exec (.clearWatch .accounting q n) s = .next (s.reply .accounting q .badArgument .nothing))

/-! ## What every step keeps -/

/-- The part right after reset satisfies every property below. -/
def Obligations.SoundAtReset : Prop :=
  QueueWithin State.reset ∧ JournalWithin State.reset ∧ LinesShown State.reset ∧ NoticeKeysUnique State.reset ∧
  SlotsOrdered State.reset ∧ RosterSound State.reset ∧ DelaysWithin State.reset ∧ TagsInRange State.reset ∧
  PlansCurrent State.reset ∧ WindowsCurrent State.reset ∧ DropsAlone State.reset ∧ SuspicionHeld State.reset ∧
  HushedOwesWake State.reset ∧ BuffersWithin State.reset ∧ MetersInRange State.reset ∧ RegistersInRange State.reset ∧
  BookingWithin State.reset ∧ BookedAsQueued State.reset

/-- R119: no step makes the allocations sum above 32 or a port hold more queue entries than its allocation. R161: no step makes
held records plus booked final places exceed 2,048, or lets the booked count differ from the number of WITHDRAW requests that
wait. -/
def Obligations.StepKeepsQueueAndJournal : Prop :=
  (∀ s s' : State, QueueWithin s → step s = .next s' → QueueWithin s') ∧
  ∀ s s' : State, JournalWithin s → step s = .next s' → JournalWithin s'

/-- R180, R179, R172: every step leaves each notice line showing its condition, each notice queue without two entries of one
kind and tree, and no request waiting at a port that has none in progress. -/
def Obligations.StepKeepsPortsSound : Prop :=
  ∀ s s' : State, LinesShown s → NoticeKeysUnique s → SlotsOrdered s → step s = .next s' →
    LinesShown s' ∧ NoticeKeysUnique s' ∧ SlotsOrdered s'

/-- R17, R34: every step keeps the roster, meters, watches and admission list canonical, slots within 512, watches within 8,
and no two entries with one serial, on one tree or two. -/
def Obligations.StepKeepsRosterSound : Prop :=
  ∀ s s' : State, RosterSound s → step s = .next s' → RosterSound s'

/-- Section 1.5, section 2.2, R35, R41, R91, R101, R123: every step keeps every register of the trees, the light supervisors
with their hunt records, the enrolment engines, the roster and the admission list in the range the manual gives, and so the
values and tags of every change that waits. -/
def Obligations.StepKeepsRegistersInRange : Prop :=
  ∀ s s' : State, RosterSound s → RegistersInRange s → step s = .next s' → RegistersInRange s'

/-- R107, R20: every step keeps the booking sum of each tree with its booked W_call and W_dark within 1,875, and each booked
commitment the greatest of the entry's c and the rates queued for it. Of the end of a call window alone it asks that no CONTRACT
of the round in progress waits for a VACANT slot of its tree: a home that took such a slot in that round would inherit the
CONTRACT (log entry 19), and only commands out of the order of fibre time bring it (log entry 1). -/
def Obligations.StepKeepsBookingWithin : Prop :=
  ∀ s s' : State, RosterSound s → RegistersInRange s → BookingWithin s → BookedAsQueued s →
    (∀ (k : TreeId) (light : List Burst) (rest : List Instr), s.pending = .callWindowEnd k light :: rest → NoFreshClaim s k) →
    step s = .next s' → BookingWithin s' ∧ BookedAsQueued s'

/-- R19, R13, R17: every step keeps each delay of an entry, its former delay included, at most the T of its tree, no T, N or H
waiting for a cut, and every tag of a plan, a window or a carried grant a tag of 1 to 128. -/
def Obligations.StepKeepsDelaysWithin : Prop :=
  ∀ s s' : State, RosterSound s → TagsInRange s → DelaysWithin s → step s = .next s' → TagsInRange s' ∧ DelaysWithin s'

/-- R11, R41, R106: every step keeps at most one plan record and one window record of a tree for each of the round in progress,
the next, and, once the cut is made, the one after. A window record whose end never came is dropped when its round ends, which
is the model's choice (log entry 4) and which this bound rests on. -/
def Obligations.StepKeepsPlansCurrent : Prop :=
  ∀ s s' : State, PlansCurrent s → WindowsCurrent s → step s = .next s' → PlansCurrent s' ∧ WindowsCurrent s'

/-- R140, R31, R65, R1: every step leaves an entry of a tree not in HUNT hushed only while a WAKE to it is owed, DROP owed
exactly by the LEAVING entries and with nothing beside it, and every tree that is not RUNNING in CLEAR. -/
def Obligations.StepKeepsHushedOwingWake : Prop :=
  ∀ s s' : State, RosterSound s → DropsAlone s → SuspicionHeld s → HushedOwesWake s → step s = .next s' →
    DropsAlone s' ∧ SuspicionHeld s' ∧ HushedOwesWake s'

/-- R70, R71, R80: every step keeps each payload buffer within 262,144 bytes, and every downstream packet at a tag of 1 to 128
with 1 to 2,048 bytes. R147, R149: every step keeps each byte count within 2^48 − 1 and each other count within 4,294,967,295,
in the meters and in the usage records. -/
def Obligations.StepKeepsBuffersAndMeters : Prop :=
  (∀ s s' : State, BuffersWithin s → step s = .next s' → BuffersWithin s') ∧
  ∀ s s' : State, MetersInRange s → step s = .next s' → MetersInRange s'
end

