-- ==== Sys2Proof/Laws/State.lean ====
section
/-! SUPPORT. One lemma per field per update of State: what each named operation leaves as it was. -/

namespace Sys2Proof.Machine

variable (s : State)

@[simp] theorem State.setTree_round (t : TreeId) (x : Tree) : (s.setTree t x).round = s.round := rfl
@[simp] theorem State.setTree_cutTaken (t : TreeId) (x : Tree) : (s.setTree t x).cutTaken = s.cutTaken := rfl
@[simp] theorem State.setTree_roster (t : TreeId) (x : Tree) : (s.setTree t x).roster = s.roster := rfl
@[simp] theorem State.setTree_admissions (t : TreeId) (x : Tree) : (s.setTree t x).admissions = s.admissions := rfl
@[simp] theorem State.setTree_openMode (t : TreeId) (x : Tree) : (s.setTree t x).openMode = s.openMode := rfl
@[simp] theorem State.setTree_ports (t : TreeId) (x : Tree) : (s.setTree t x).ports = s.ports := rfl
@[simp] theorem State.setTree_routes (t : TreeId) (x : Tree) : (s.setTree t x).routes = s.routes := rfl
@[simp] theorem State.setTree_queue (t : TreeId) (x : Tree) : (s.setTree t x).queue = s.queue := rfl
@[simp] theorem State.setTree_tickets (t : TreeId) (x : Tree) : (s.setTree t x).tickets = s.tickets := rfl
@[simp] theorem State.setTree_band (t : TreeId) (x : Tree) : (s.setTree t x).band = s.band := rfl
@[simp] theorem State.setTree_meters (t : TreeId) (x : Tree) : (s.setTree t x).meters = s.meters := rfl
@[simp] theorem State.setTree_watches (t : TreeId) (x : Tree) : (s.setTree t x).watches = s.watches := rfl
@[simp] theorem State.setTree_journal (t : TreeId) (x : Tree) : (s.setTree t x).journal = s.journal := rfl
@[simp] theorem State.setTree_upBuffer (t : TreeId) (x : Tree) : (s.setTree t x).upBuffer = s.upBuffer := rfl
@[simp] theorem State.setTree_delivered (t : TreeId) (x : Tree) : (s.setTree t x).delivered = s.delivered := rfl
@[simp] theorem State.setTree_heldPacket (t : TreeId) (x : Tree) : (s.setTree t x).heldPacket = s.heldPacket := rfl
@[simp] theorem State.setTree_pending (t : TreeId) (x : Tree) : (s.setTree t x).pending = s.pending := rfl

@[simp] theorem State.modTree_round (t : TreeId) (f : Tree → Tree) : (s.modTree t f).round = s.round := rfl
@[simp] theorem State.modTree_cutTaken (t : TreeId) (f : Tree → Tree) : (s.modTree t f).cutTaken = s.cutTaken := rfl
@[simp] theorem State.modTree_roster (t : TreeId) (f : Tree → Tree) : (s.modTree t f).roster = s.roster := rfl
@[simp] theorem State.modTree_admissions (t : TreeId) (f : Tree → Tree) : (s.modTree t f).admissions = s.admissions := rfl
@[simp] theorem State.modTree_openMode (t : TreeId) (f : Tree → Tree) : (s.modTree t f).openMode = s.openMode := rfl
@[simp] theorem State.modTree_ports (t : TreeId) (f : Tree → Tree) : (s.modTree t f).ports = s.ports := rfl
@[simp] theorem State.modTree_routes (t : TreeId) (f : Tree → Tree) : (s.modTree t f).routes = s.routes := rfl
@[simp] theorem State.modTree_queue (t : TreeId) (f : Tree → Tree) : (s.modTree t f).queue = s.queue := rfl
@[simp] theorem State.modTree_tickets (t : TreeId) (f : Tree → Tree) : (s.modTree t f).tickets = s.tickets := rfl
@[simp] theorem State.modTree_band (t : TreeId) (f : Tree → Tree) : (s.modTree t f).band = s.band := rfl
@[simp] theorem State.modTree_meters (t : TreeId) (f : Tree → Tree) : (s.modTree t f).meters = s.meters := rfl
@[simp] theorem State.modTree_watches (t : TreeId) (f : Tree → Tree) : (s.modTree t f).watches = s.watches := rfl
@[simp] theorem State.modTree_journal (t : TreeId) (f : Tree → Tree) : (s.modTree t f).journal = s.journal := rfl
@[simp] theorem State.modTree_upBuffer (t : TreeId) (f : Tree → Tree) : (s.modTree t f).upBuffer = s.upBuffer := rfl
@[simp] theorem State.modTree_delivered (t : TreeId) (f : Tree → Tree) : (s.modTree t f).delivered = s.delivered := rfl
@[simp] theorem State.modTree_heldPacket (t : TreeId) (f : Tree → Tree) : (s.modTree t f).heldPacket = s.heldPacket := rfl
@[simp] theorem State.modTree_pending (t : TreeId) (f : Tree → Tree) : (s.modTree t f).pending = s.pending := rfl

@[simp] theorem State.modEngine_round (t : TreeId) (f : Engine → Engine) : (s.modEngine t f).round = s.round := rfl
@[simp] theorem State.modEngine_cutTaken (t : TreeId) (f : Engine → Engine) : (s.modEngine t f).cutTaken = s.cutTaken := rfl
@[simp] theorem State.modEngine_roster (t : TreeId) (f : Engine → Engine) : (s.modEngine t f).roster = s.roster := rfl
@[simp] theorem State.modEngine_admissions (t : TreeId) (f : Engine → Engine) : (s.modEngine t f).admissions = s.admissions := rfl
@[simp] theorem State.modEngine_openMode (t : TreeId) (f : Engine → Engine) : (s.modEngine t f).openMode = s.openMode := rfl
@[simp] theorem State.modEngine_ports (t : TreeId) (f : Engine → Engine) : (s.modEngine t f).ports = s.ports := rfl
@[simp] theorem State.modEngine_routes (t : TreeId) (f : Engine → Engine) : (s.modEngine t f).routes = s.routes := rfl
@[simp] theorem State.modEngine_queue (t : TreeId) (f : Engine → Engine) : (s.modEngine t f).queue = s.queue := rfl
@[simp] theorem State.modEngine_tickets (t : TreeId) (f : Engine → Engine) : (s.modEngine t f).tickets = s.tickets := rfl
@[simp] theorem State.modEngine_band (t : TreeId) (f : Engine → Engine) : (s.modEngine t f).band = s.band := rfl
@[simp] theorem State.modEngine_meters (t : TreeId) (f : Engine → Engine) : (s.modEngine t f).meters = s.meters := rfl
@[simp] theorem State.modEngine_watches (t : TreeId) (f : Engine → Engine) : (s.modEngine t f).watches = s.watches := rfl
@[simp] theorem State.modEngine_journal (t : TreeId) (f : Engine → Engine) : (s.modEngine t f).journal = s.journal := rfl
@[simp] theorem State.modEngine_upBuffer (t : TreeId) (f : Engine → Engine) : (s.modEngine t f).upBuffer = s.upBuffer := rfl
@[simp] theorem State.modEngine_delivered (t : TreeId) (f : Engine → Engine) : (s.modEngine t f).delivered = s.delivered := rfl
@[simp] theorem State.modEngine_heldPacket (t : TreeId) (f : Engine → Engine) : (s.modEngine t f).heldPacket = s.heldPacket := rfl
@[simp] theorem State.modEngine_pending (t : TreeId) (f : Engine → Engine) : (s.modEngine t f).pending = s.pending := rfl

@[simp] theorem State.modLight_round (t : TreeId) (f : Light → Light) : (s.modLight t f).round = s.round := rfl
@[simp] theorem State.modLight_cutTaken (t : TreeId) (f : Light → Light) : (s.modLight t f).cutTaken = s.cutTaken := rfl
@[simp] theorem State.modLight_roster (t : TreeId) (f : Light → Light) : (s.modLight t f).roster = s.roster := rfl
@[simp] theorem State.modLight_admissions (t : TreeId) (f : Light → Light) : (s.modLight t f).admissions = s.admissions := rfl
@[simp] theorem State.modLight_openMode (t : TreeId) (f : Light → Light) : (s.modLight t f).openMode = s.openMode := rfl
@[simp] theorem State.modLight_ports (t : TreeId) (f : Light → Light) : (s.modLight t f).ports = s.ports := rfl
@[simp] theorem State.modLight_routes (t : TreeId) (f : Light → Light) : (s.modLight t f).routes = s.routes := rfl
@[simp] theorem State.modLight_queue (t : TreeId) (f : Light → Light) : (s.modLight t f).queue = s.queue := rfl
@[simp] theorem State.modLight_tickets (t : TreeId) (f : Light → Light) : (s.modLight t f).tickets = s.tickets := rfl
@[simp] theorem State.modLight_band (t : TreeId) (f : Light → Light) : (s.modLight t f).band = s.band := rfl
@[simp] theorem State.modLight_meters (t : TreeId) (f : Light → Light) : (s.modLight t f).meters = s.meters := rfl
@[simp] theorem State.modLight_watches (t : TreeId) (f : Light → Light) : (s.modLight t f).watches = s.watches := rfl
@[simp] theorem State.modLight_journal (t : TreeId) (f : Light → Light) : (s.modLight t f).journal = s.journal := rfl
@[simp] theorem State.modLight_upBuffer (t : TreeId) (f : Light → Light) : (s.modLight t f).upBuffer = s.upBuffer := rfl
@[simp] theorem State.modLight_delivered (t : TreeId) (f : Light → Light) : (s.modLight t f).delivered = s.delivered := rfl
@[simp] theorem State.modLight_heldPacket (t : TreeId) (f : Light → Light) : (s.modLight t f).heldPacket = s.heldPacket := rfl
@[simp] theorem State.modLight_pending (t : TreeId) (f : Light → Light) : (s.modLight t f).pending = s.pending := rfl

@[simp] theorem State.modChecker_round (t : TreeId) (f : Checker → Checker) : (s.modChecker t f).round = s.round := rfl
@[simp] theorem State.modChecker_cutTaken (t : TreeId) (f : Checker → Checker) : (s.modChecker t f).cutTaken = s.cutTaken := rfl
@[simp] theorem State.modChecker_roster (t : TreeId) (f : Checker → Checker) : (s.modChecker t f).roster = s.roster := rfl
@[simp] theorem State.modChecker_admissions (t : TreeId) (f : Checker → Checker) : (s.modChecker t f).admissions = s.admissions := rfl
@[simp] theorem State.modChecker_openMode (t : TreeId) (f : Checker → Checker) : (s.modChecker t f).openMode = s.openMode := rfl
@[simp] theorem State.modChecker_ports (t : TreeId) (f : Checker → Checker) : (s.modChecker t f).ports = s.ports := rfl
@[simp] theorem State.modChecker_routes (t : TreeId) (f : Checker → Checker) : (s.modChecker t f).routes = s.routes := rfl
@[simp] theorem State.modChecker_queue (t : TreeId) (f : Checker → Checker) : (s.modChecker t f).queue = s.queue := rfl
@[simp] theorem State.modChecker_tickets (t : TreeId) (f : Checker → Checker) : (s.modChecker t f).tickets = s.tickets := rfl
@[simp] theorem State.modChecker_band (t : TreeId) (f : Checker → Checker) : (s.modChecker t f).band = s.band := rfl
@[simp] theorem State.modChecker_meters (t : TreeId) (f : Checker → Checker) : (s.modChecker t f).meters = s.meters := rfl
@[simp] theorem State.modChecker_watches (t : TreeId) (f : Checker → Checker) : (s.modChecker t f).watches = s.watches := rfl
@[simp] theorem State.modChecker_journal (t : TreeId) (f : Checker → Checker) : (s.modChecker t f).journal = s.journal := rfl
@[simp] theorem State.modChecker_upBuffer (t : TreeId) (f : Checker → Checker) : (s.modChecker t f).upBuffer = s.upBuffer := rfl
@[simp] theorem State.modChecker_delivered (t : TreeId) (f : Checker → Checker) : (s.modChecker t f).delivered = s.delivered := rfl
@[simp] theorem State.modChecker_heldPacket (t : TreeId) (f : Checker → Checker) : (s.modChecker t f).heldPacket = s.heldPacket := rfl
@[simp] theorem State.modChecker_pending (t : TreeId) (f : Checker → Checker) : (s.modChecker t f).pending = s.pending := rfl

@[simp] theorem State.modFramer_round (t : TreeId) (f : Framer → Framer) : (s.modFramer t f).round = s.round := rfl
@[simp] theorem State.modFramer_cutTaken (t : TreeId) (f : Framer → Framer) : (s.modFramer t f).cutTaken = s.cutTaken := rfl
@[simp] theorem State.modFramer_roster (t : TreeId) (f : Framer → Framer) : (s.modFramer t f).roster = s.roster := rfl
@[simp] theorem State.modFramer_admissions (t : TreeId) (f : Framer → Framer) : (s.modFramer t f).admissions = s.admissions := rfl
@[simp] theorem State.modFramer_openMode (t : TreeId) (f : Framer → Framer) : (s.modFramer t f).openMode = s.openMode := rfl
@[simp] theorem State.modFramer_ports (t : TreeId) (f : Framer → Framer) : (s.modFramer t f).ports = s.ports := rfl
@[simp] theorem State.modFramer_routes (t : TreeId) (f : Framer → Framer) : (s.modFramer t f).routes = s.routes := rfl
@[simp] theorem State.modFramer_queue (t : TreeId) (f : Framer → Framer) : (s.modFramer t f).queue = s.queue := rfl
@[simp] theorem State.modFramer_tickets (t : TreeId) (f : Framer → Framer) : (s.modFramer t f).tickets = s.tickets := rfl
@[simp] theorem State.modFramer_band (t : TreeId) (f : Framer → Framer) : (s.modFramer t f).band = s.band := rfl
@[simp] theorem State.modFramer_meters (t : TreeId) (f : Framer → Framer) : (s.modFramer t f).meters = s.meters := rfl
@[simp] theorem State.modFramer_watches (t : TreeId) (f : Framer → Framer) : (s.modFramer t f).watches = s.watches := rfl
@[simp] theorem State.modFramer_journal (t : TreeId) (f : Framer → Framer) : (s.modFramer t f).journal = s.journal := rfl
@[simp] theorem State.modFramer_upBuffer (t : TreeId) (f : Framer → Framer) : (s.modFramer t f).upBuffer = s.upBuffer := rfl
@[simp] theorem State.modFramer_delivered (t : TreeId) (f : Framer → Framer) : (s.modFramer t f).delivered = s.delivered := rfl
@[simp] theorem State.modFramer_heldPacket (t : TreeId) (f : Framer → Framer) : (s.modFramer t f).heldPacket = s.heldPacket := rfl
@[simp] theorem State.modFramer_pending (t : TreeId) (f : Framer → Framer) : (s.modFramer t f).pending = s.pending := rfl

@[simp] theorem State.setPort_round (p : Port) (x : PortState) : (s.setPort p x).round = s.round := rfl
@[simp] theorem State.setPort_cutTaken (p : Port) (x : PortState) : (s.setPort p x).cutTaken = s.cutTaken := rfl
@[simp] theorem State.setPort_trees (p : Port) (x : PortState) : (s.setPort p x).trees = s.trees := rfl
@[simp] theorem State.setPort_roster (p : Port) (x : PortState) : (s.setPort p x).roster = s.roster := rfl
@[simp] theorem State.setPort_admissions (p : Port) (x : PortState) : (s.setPort p x).admissions = s.admissions := rfl
@[simp] theorem State.setPort_openMode (p : Port) (x : PortState) : (s.setPort p x).openMode = s.openMode := rfl
@[simp] theorem State.setPort_routes (p : Port) (x : PortState) : (s.setPort p x).routes = s.routes := rfl
@[simp] theorem State.setPort_queue (p : Port) (x : PortState) : (s.setPort p x).queue = s.queue := rfl
@[simp] theorem State.setPort_tickets (p : Port) (x : PortState) : (s.setPort p x).tickets = s.tickets := rfl
@[simp] theorem State.setPort_band (p : Port) (x : PortState) : (s.setPort p x).band = s.band := rfl
@[simp] theorem State.setPort_meters (p : Port) (x : PortState) : (s.setPort p x).meters = s.meters := rfl
@[simp] theorem State.setPort_watches (p : Port) (x : PortState) : (s.setPort p x).watches = s.watches := rfl
@[simp] theorem State.setPort_journal (p : Port) (x : PortState) : (s.setPort p x).journal = s.journal := rfl
@[simp] theorem State.setPort_upBuffer (p : Port) (x : PortState) : (s.setPort p x).upBuffer = s.upBuffer := rfl
@[simp] theorem State.setPort_delivered (p : Port) (x : PortState) : (s.setPort p x).delivered = s.delivered := rfl
@[simp] theorem State.setPort_heldPacket (p : Port) (x : PortState) : (s.setPort p x).heldPacket = s.heldPacket := rfl
@[simp] theorem State.setPort_pending (p : Port) (x : PortState) : (s.setPort p x).pending = s.pending := rfl

@[simp] theorem State.modPort_round (p : Port) (f : PortState → PortState) : (s.modPort p f).round = s.round := rfl
@[simp] theorem State.modPort_cutTaken (p : Port) (f : PortState → PortState) : (s.modPort p f).cutTaken = s.cutTaken := rfl
@[simp] theorem State.modPort_trees (p : Port) (f : PortState → PortState) : (s.modPort p f).trees = s.trees := rfl
@[simp] theorem State.modPort_roster (p : Port) (f : PortState → PortState) : (s.modPort p f).roster = s.roster := rfl
@[simp] theorem State.modPort_admissions (p : Port) (f : PortState → PortState) : (s.modPort p f).admissions = s.admissions := rfl
@[simp] theorem State.modPort_openMode (p : Port) (f : PortState → PortState) : (s.modPort p f).openMode = s.openMode := rfl
@[simp] theorem State.modPort_routes (p : Port) (f : PortState → PortState) : (s.modPort p f).routes = s.routes := rfl
@[simp] theorem State.modPort_queue (p : Port) (f : PortState → PortState) : (s.modPort p f).queue = s.queue := rfl
@[simp] theorem State.modPort_tickets (p : Port) (f : PortState → PortState) : (s.modPort p f).tickets = s.tickets := rfl
@[simp] theorem State.modPort_band (p : Port) (f : PortState → PortState) : (s.modPort p f).band = s.band := rfl
@[simp] theorem State.modPort_meters (p : Port) (f : PortState → PortState) : (s.modPort p f).meters = s.meters := rfl
@[simp] theorem State.modPort_watches (p : Port) (f : PortState → PortState) : (s.modPort p f).watches = s.watches := rfl
@[simp] theorem State.modPort_journal (p : Port) (f : PortState → PortState) : (s.modPort p f).journal = s.journal := rfl
@[simp] theorem State.modPort_upBuffer (p : Port) (f : PortState → PortState) : (s.modPort p f).upBuffer = s.upBuffer := rfl
@[simp] theorem State.modPort_delivered (p : Port) (f : PortState → PortState) : (s.modPort p f).delivered = s.delivered := rfl
@[simp] theorem State.modPort_heldPacket (p : Port) (f : PortState → PortState) : (s.modPort p f).heldPacket = s.heldPacket := rfl
@[simp] theorem State.modPort_pending (p : Port) (f : PortState → PortState) : (s.modPort p f).pending = s.pending := rfl

@[simp] theorem State.setEntry_round (t : TreeId) (tag : Nat) (e : Entry) : (s.setEntry t tag e).round = s.round := rfl
@[simp] theorem State.setEntry_cutTaken (t : TreeId) (tag : Nat) (e : Entry) : (s.setEntry t tag e).cutTaken = s.cutTaken := rfl
@[simp] theorem State.setEntry_trees (t : TreeId) (tag : Nat) (e : Entry) : (s.setEntry t tag e).trees = s.trees := rfl
@[simp] theorem State.setEntry_admissions (t : TreeId) (tag : Nat) (e : Entry) : (s.setEntry t tag e).admissions = s.admissions := rfl
@[simp] theorem State.setEntry_openMode (t : TreeId) (tag : Nat) (e : Entry) : (s.setEntry t tag e).openMode = s.openMode := rfl
@[simp] theorem State.setEntry_ports (t : TreeId) (tag : Nat) (e : Entry) : (s.setEntry t tag e).ports = s.ports := rfl
@[simp] theorem State.setEntry_routes (t : TreeId) (tag : Nat) (e : Entry) : (s.setEntry t tag e).routes = s.routes := rfl
@[simp] theorem State.setEntry_queue (t : TreeId) (tag : Nat) (e : Entry) : (s.setEntry t tag e).queue = s.queue := rfl
@[simp] theorem State.setEntry_tickets (t : TreeId) (tag : Nat) (e : Entry) : (s.setEntry t tag e).tickets = s.tickets := rfl
@[simp] theorem State.setEntry_band (t : TreeId) (tag : Nat) (e : Entry) : (s.setEntry t tag e).band = s.band := rfl
@[simp] theorem State.setEntry_meters (t : TreeId) (tag : Nat) (e : Entry) : (s.setEntry t tag e).meters = s.meters := rfl
@[simp] theorem State.setEntry_watches (t : TreeId) (tag : Nat) (e : Entry) : (s.setEntry t tag e).watches = s.watches := rfl
@[simp] theorem State.setEntry_journal (t : TreeId) (tag : Nat) (e : Entry) : (s.setEntry t tag e).journal = s.journal := rfl
@[simp] theorem State.setEntry_upBuffer (t : TreeId) (tag : Nat) (e : Entry) : (s.setEntry t tag e).upBuffer = s.upBuffer := rfl
@[simp] theorem State.setEntry_delivered (t : TreeId) (tag : Nat) (e : Entry) : (s.setEntry t tag e).delivered = s.delivered := rfl
@[simp] theorem State.setEntry_heldPacket (t : TreeId) (tag : Nat) (e : Entry) : (s.setEntry t tag e).heldPacket = s.heldPacket := rfl
@[simp] theorem State.setEntry_pending (t : TreeId) (tag : Nat) (e : Entry) : (s.setEntry t tag e).pending = s.pending := rfl

@[simp] theorem State.modEntry_round (t : TreeId) (tag : Nat) (f : Entry → Entry) : (s.modEntry t tag f).round = s.round := rfl
@[simp] theorem State.modEntry_cutTaken (t : TreeId) (tag : Nat) (f : Entry → Entry) : (s.modEntry t tag f).cutTaken = s.cutTaken := rfl
@[simp] theorem State.modEntry_trees (t : TreeId) (tag : Nat) (f : Entry → Entry) : (s.modEntry t tag f).trees = s.trees := rfl
@[simp] theorem State.modEntry_admissions (t : TreeId) (tag : Nat) (f : Entry → Entry) : (s.modEntry t tag f).admissions = s.admissions := rfl
@[simp] theorem State.modEntry_openMode (t : TreeId) (tag : Nat) (f : Entry → Entry) : (s.modEntry t tag f).openMode = s.openMode := rfl
@[simp] theorem State.modEntry_ports (t : TreeId) (tag : Nat) (f : Entry → Entry) : (s.modEntry t tag f).ports = s.ports := rfl
@[simp] theorem State.modEntry_routes (t : TreeId) (tag : Nat) (f : Entry → Entry) : (s.modEntry t tag f).routes = s.routes := rfl
@[simp] theorem State.modEntry_queue (t : TreeId) (tag : Nat) (f : Entry → Entry) : (s.modEntry t tag f).queue = s.queue := rfl
@[simp] theorem State.modEntry_tickets (t : TreeId) (tag : Nat) (f : Entry → Entry) : (s.modEntry t tag f).tickets = s.tickets := rfl
@[simp] theorem State.modEntry_band (t : TreeId) (tag : Nat) (f : Entry → Entry) : (s.modEntry t tag f).band = s.band := rfl
@[simp] theorem State.modEntry_meters (t : TreeId) (tag : Nat) (f : Entry → Entry) : (s.modEntry t tag f).meters = s.meters := rfl
@[simp] theorem State.modEntry_watches (t : TreeId) (tag : Nat) (f : Entry → Entry) : (s.modEntry t tag f).watches = s.watches := rfl
@[simp] theorem State.modEntry_journal (t : TreeId) (tag : Nat) (f : Entry → Entry) : (s.modEntry t tag f).journal = s.journal := rfl
@[simp] theorem State.modEntry_upBuffer (t : TreeId) (tag : Nat) (f : Entry → Entry) : (s.modEntry t tag f).upBuffer = s.upBuffer := rfl
@[simp] theorem State.modEntry_delivered (t : TreeId) (tag : Nat) (f : Entry → Entry) : (s.modEntry t tag f).delivered = s.delivered := rfl
@[simp] theorem State.modEntry_heldPacket (t : TreeId) (tag : Nat) (f : Entry → Entry) : (s.modEntry t tag f).heldPacket = s.heldPacket := rfl
@[simp] theorem State.modEntry_pending (t : TreeId) (tag : Nat) (f : Entry → Entry) : (s.modEntry t tag f).pending = s.pending := rfl

@[simp] theorem State.modTreeEntries_round (t : TreeId) (f : Nat → Entry → Entry) : (s.modTreeEntries t f).round = s.round := rfl
@[simp] theorem State.modTreeEntries_cutTaken (t : TreeId) (f : Nat → Entry → Entry) : (s.modTreeEntries t f).cutTaken = s.cutTaken := rfl
@[simp] theorem State.modTreeEntries_trees (t : TreeId) (f : Nat → Entry → Entry) : (s.modTreeEntries t f).trees = s.trees := rfl
@[simp] theorem State.modTreeEntries_admissions (t : TreeId) (f : Nat → Entry → Entry) : (s.modTreeEntries t f).admissions = s.admissions := rfl
@[simp] theorem State.modTreeEntries_openMode (t : TreeId) (f : Nat → Entry → Entry) : (s.modTreeEntries t f).openMode = s.openMode := rfl
@[simp] theorem State.modTreeEntries_ports (t : TreeId) (f : Nat → Entry → Entry) : (s.modTreeEntries t f).ports = s.ports := rfl
@[simp] theorem State.modTreeEntries_routes (t : TreeId) (f : Nat → Entry → Entry) : (s.modTreeEntries t f).routes = s.routes := rfl
@[simp] theorem State.modTreeEntries_queue (t : TreeId) (f : Nat → Entry → Entry) : (s.modTreeEntries t f).queue = s.queue := rfl
@[simp] theorem State.modTreeEntries_tickets (t : TreeId) (f : Nat → Entry → Entry) : (s.modTreeEntries t f).tickets = s.tickets := rfl
@[simp] theorem State.modTreeEntries_band (t : TreeId) (f : Nat → Entry → Entry) : (s.modTreeEntries t f).band = s.band := rfl
@[simp] theorem State.modTreeEntries_meters (t : TreeId) (f : Nat → Entry → Entry) : (s.modTreeEntries t f).meters = s.meters := rfl
@[simp] theorem State.modTreeEntries_watches (t : TreeId) (f : Nat → Entry → Entry) : (s.modTreeEntries t f).watches = s.watches := rfl
@[simp] theorem State.modTreeEntries_journal (t : TreeId) (f : Nat → Entry → Entry) : (s.modTreeEntries t f).journal = s.journal := rfl
@[simp] theorem State.modTreeEntries_upBuffer (t : TreeId) (f : Nat → Entry → Entry) : (s.modTreeEntries t f).upBuffer = s.upBuffer := rfl
@[simp] theorem State.modTreeEntries_delivered (t : TreeId) (f : Nat → Entry → Entry) : (s.modTreeEntries t f).delivered = s.delivered := rfl
@[simp] theorem State.modTreeEntries_heldPacket (t : TreeId) (f : Nat → Entry → Entry) : (s.modTreeEntries t f).heldPacket = s.heldPacket := rfl
@[simp] theorem State.modTreeEntries_pending (t : TreeId) (f : Nat → Entry → Entry) : (s.modTreeEntries t f).pending = s.pending := rfl

@[simp] theorem State.vacate_round (t : TreeId) (tag : Nat) : (s.vacate t tag).round = s.round := rfl
@[simp] theorem State.vacate_cutTaken (t : TreeId) (tag : Nat) : (s.vacate t tag).cutTaken = s.cutTaken := rfl
@[simp] theorem State.vacate_trees (t : TreeId) (tag : Nat) : (s.vacate t tag).trees = s.trees := rfl
@[simp] theorem State.vacate_admissions (t : TreeId) (tag : Nat) : (s.vacate t tag).admissions = s.admissions := rfl
@[simp] theorem State.vacate_openMode (t : TreeId) (tag : Nat) : (s.vacate t tag).openMode = s.openMode := rfl
@[simp] theorem State.vacate_ports (t : TreeId) (tag : Nat) : (s.vacate t tag).ports = s.ports := rfl
@[simp] theorem State.vacate_routes (t : TreeId) (tag : Nat) : (s.vacate t tag).routes = s.routes := rfl
@[simp] theorem State.vacate_queue (t : TreeId) (tag : Nat) : (s.vacate t tag).queue = s.queue := rfl
@[simp] theorem State.vacate_tickets (t : TreeId) (tag : Nat) : (s.vacate t tag).tickets = s.tickets := rfl
@[simp] theorem State.vacate_band (t : TreeId) (tag : Nat) : (s.vacate t tag).band = s.band := rfl
@[simp] theorem State.vacate_meters (t : TreeId) (tag : Nat) : (s.vacate t tag).meters = s.meters := rfl
@[simp] theorem State.vacate_journal (t : TreeId) (tag : Nat) : (s.vacate t tag).journal = s.journal := rfl
@[simp] theorem State.vacate_upBuffer (t : TreeId) (tag : Nat) : (s.vacate t tag).upBuffer = s.upBuffer := rfl
@[simp] theorem State.vacate_delivered (t : TreeId) (tag : Nat) : (s.vacate t tag).delivered = s.delivered := rfl
@[simp] theorem State.vacate_heldPacket (t : TreeId) (tag : Nat) : (s.vacate t tag).heldPacket = s.heldPacket := rfl
@[simp] theorem State.vacate_pending (t : TreeId) (tag : Nat) : (s.vacate t tag).pending = s.pending := rfl

@[simp] theorem State.rebook_round (t : TreeId) (tag : Nat) : (s.rebook t tag).round = s.round := rfl
@[simp] theorem State.rebook_cutTaken (t : TreeId) (tag : Nat) : (s.rebook t tag).cutTaken = s.cutTaken := rfl
@[simp] theorem State.rebook_trees (t : TreeId) (tag : Nat) : (s.rebook t tag).trees = s.trees := rfl
@[simp] theorem State.rebook_admissions (t : TreeId) (tag : Nat) : (s.rebook t tag).admissions = s.admissions := rfl
@[simp] theorem State.rebook_openMode (t : TreeId) (tag : Nat) : (s.rebook t tag).openMode = s.openMode := rfl
@[simp] theorem State.rebook_ports (t : TreeId) (tag : Nat) : (s.rebook t tag).ports = s.ports := rfl
@[simp] theorem State.rebook_routes (t : TreeId) (tag : Nat) : (s.rebook t tag).routes = s.routes := rfl
@[simp] theorem State.rebook_queue (t : TreeId) (tag : Nat) : (s.rebook t tag).queue = s.queue := rfl
@[simp] theorem State.rebook_tickets (t : TreeId) (tag : Nat) : (s.rebook t tag).tickets = s.tickets := rfl
@[simp] theorem State.rebook_band (t : TreeId) (tag : Nat) : (s.rebook t tag).band = s.band := rfl
@[simp] theorem State.rebook_meters (t : TreeId) (tag : Nat) : (s.rebook t tag).meters = s.meters := rfl
@[simp] theorem State.rebook_watches (t : TreeId) (tag : Nat) : (s.rebook t tag).watches = s.watches := rfl
@[simp] theorem State.rebook_journal (t : TreeId) (tag : Nat) : (s.rebook t tag).journal = s.journal := rfl
@[simp] theorem State.rebook_upBuffer (t : TreeId) (tag : Nat) : (s.rebook t tag).upBuffer = s.upBuffer := rfl
@[simp] theorem State.rebook_delivered (t : TreeId) (tag : Nat) : (s.rebook t tag).delivered = s.delivered := rfl
@[simp] theorem State.rebook_heldPacket (t : TreeId) (tag : Nat) : (s.rebook t tag).heldPacket = s.heldPacket := rfl
@[simp] theorem State.rebook_pending (t : TreeId) (tag : Nat) : (s.rebook t tag).pending = s.pending := rfl

@[simp] theorem State.raiseAt_round (p : Port) (k : Option TreeId) (d : Detail) : (s.raiseAt p k d).round = s.round := rfl
@[simp] theorem State.raiseAt_cutTaken (p : Port) (k : Option TreeId) (d : Detail) : (s.raiseAt p k d).cutTaken = s.cutTaken := rfl
@[simp] theorem State.raiseAt_trees (p : Port) (k : Option TreeId) (d : Detail) : (s.raiseAt p k d).trees = s.trees := rfl
@[simp] theorem State.raiseAt_roster (p : Port) (k : Option TreeId) (d : Detail) : (s.raiseAt p k d).roster = s.roster := rfl
@[simp] theorem State.raiseAt_admissions (p : Port) (k : Option TreeId) (d : Detail) : (s.raiseAt p k d).admissions = s.admissions := rfl
@[simp] theorem State.raiseAt_openMode (p : Port) (k : Option TreeId) (d : Detail) : (s.raiseAt p k d).openMode = s.openMode := rfl
@[simp] theorem State.raiseAt_routes (p : Port) (k : Option TreeId) (d : Detail) : (s.raiseAt p k d).routes = s.routes := rfl
@[simp] theorem State.raiseAt_queue (p : Port) (k : Option TreeId) (d : Detail) : (s.raiseAt p k d).queue = s.queue := rfl
@[simp] theorem State.raiseAt_tickets (p : Port) (k : Option TreeId) (d : Detail) : (s.raiseAt p k d).tickets = s.tickets := rfl
@[simp] theorem State.raiseAt_band (p : Port) (k : Option TreeId) (d : Detail) : (s.raiseAt p k d).band = s.band := rfl
@[simp] theorem State.raiseAt_meters (p : Port) (k : Option TreeId) (d : Detail) : (s.raiseAt p k d).meters = s.meters := rfl
@[simp] theorem State.raiseAt_watches (p : Port) (k : Option TreeId) (d : Detail) : (s.raiseAt p k d).watches = s.watches := rfl
@[simp] theorem State.raiseAt_journal (p : Port) (k : Option TreeId) (d : Detail) : (s.raiseAt p k d).journal = s.journal := rfl
@[simp] theorem State.raiseAt_upBuffer (p : Port) (k : Option TreeId) (d : Detail) : (s.raiseAt p k d).upBuffer = s.upBuffer := rfl
@[simp] theorem State.raiseAt_delivered (p : Port) (k : Option TreeId) (d : Detail) : (s.raiseAt p k d).delivered = s.delivered := rfl
@[simp] theorem State.raiseAt_heldPacket (p : Port) (k : Option TreeId) (d : Detail) : (s.raiseAt p k d).heldPacket = s.heldPacket := rfl
@[simp] theorem State.raiseAt_pending (p : Port) (k : Option TreeId) (d : Detail) : (s.raiseAt p k d).pending = s.pending := rfl

@[simp] theorem State.raise_round (t : TreeId) (d : Detail) : (s.raise t d).round = s.round := rfl
@[simp] theorem State.raise_cutTaken (t : TreeId) (d : Detail) : (s.raise t d).cutTaken = s.cutTaken := rfl
@[simp] theorem State.raise_trees (t : TreeId) (d : Detail) : (s.raise t d).trees = s.trees := rfl
@[simp] theorem State.raise_roster (t : TreeId) (d : Detail) : (s.raise t d).roster = s.roster := rfl
@[simp] theorem State.raise_admissions (t : TreeId) (d : Detail) : (s.raise t d).admissions = s.admissions := rfl
@[simp] theorem State.raise_openMode (t : TreeId) (d : Detail) : (s.raise t d).openMode = s.openMode := rfl
@[simp] theorem State.raise_routes (t : TreeId) (d : Detail) : (s.raise t d).routes = s.routes := rfl
@[simp] theorem State.raise_queue (t : TreeId) (d : Detail) : (s.raise t d).queue = s.queue := rfl
@[simp] theorem State.raise_tickets (t : TreeId) (d : Detail) : (s.raise t d).tickets = s.tickets := rfl
@[simp] theorem State.raise_band (t : TreeId) (d : Detail) : (s.raise t d).band = s.band := rfl
@[simp] theorem State.raise_meters (t : TreeId) (d : Detail) : (s.raise t d).meters = s.meters := rfl
@[simp] theorem State.raise_watches (t : TreeId) (d : Detail) : (s.raise t d).watches = s.watches := rfl
@[simp] theorem State.raise_journal (t : TreeId) (d : Detail) : (s.raise t d).journal = s.journal := rfl
@[simp] theorem State.raise_upBuffer (t : TreeId) (d : Detail) : (s.raise t d).upBuffer = s.upBuffer := rfl
@[simp] theorem State.raise_delivered (t : TreeId) (d : Detail) : (s.raise t d).delivered = s.delivered := rfl
@[simp] theorem State.raise_heldPacket (t : TreeId) (d : Detail) : (s.raise t d).heldPacket = s.heldPacket := rfl
@[simp] theorem State.raise_pending (t : TreeId) (d : Detail) : (s.raise t d).pending = s.pending := rfl

@[simp] theorem State.raiseKeyless_round (d : Detail) : (s.raiseKeyless d).round = s.round := rfl
@[simp] theorem State.raiseKeyless_cutTaken (d : Detail) : (s.raiseKeyless d).cutTaken = s.cutTaken := rfl
@[simp] theorem State.raiseKeyless_trees (d : Detail) : (s.raiseKeyless d).trees = s.trees := rfl
@[simp] theorem State.raiseKeyless_roster (d : Detail) : (s.raiseKeyless d).roster = s.roster := rfl
@[simp] theorem State.raiseKeyless_admissions (d : Detail) : (s.raiseKeyless d).admissions = s.admissions := rfl
@[simp] theorem State.raiseKeyless_openMode (d : Detail) : (s.raiseKeyless d).openMode = s.openMode := rfl
@[simp] theorem State.raiseKeyless_routes (d : Detail) : (s.raiseKeyless d).routes = s.routes := rfl
@[simp] theorem State.raiseKeyless_queue (d : Detail) : (s.raiseKeyless d).queue = s.queue := rfl
@[simp] theorem State.raiseKeyless_tickets (d : Detail) : (s.raiseKeyless d).tickets = s.tickets := rfl
@[simp] theorem State.raiseKeyless_band (d : Detail) : (s.raiseKeyless d).band = s.band := rfl
@[simp] theorem State.raiseKeyless_meters (d : Detail) : (s.raiseKeyless d).meters = s.meters := rfl
@[simp] theorem State.raiseKeyless_watches (d : Detail) : (s.raiseKeyless d).watches = s.watches := rfl
@[simp] theorem State.raiseKeyless_journal (d : Detail) : (s.raiseKeyless d).journal = s.journal := rfl
@[simp] theorem State.raiseKeyless_upBuffer (d : Detail) : (s.raiseKeyless d).upBuffer = s.upBuffer := rfl
@[simp] theorem State.raiseKeyless_delivered (d : Detail) : (s.raiseKeyless d).delivered = s.delivered := rfl
@[simp] theorem State.raiseKeyless_heldPacket (d : Detail) : (s.raiseKeyless d).heldPacket = s.heldPacket := rfl
@[simp] theorem State.raiseKeyless_pending (d : Detail) : (s.raiseKeyless d).pending = s.pending := rfl

@[simp] theorem State.reply_round (p : Port) (q : Byte) (a : Status) (r : Results) : (s.reply p q a r).round = s.round := rfl
@[simp] theorem State.reply_cutTaken (p : Port) (q : Byte) (a : Status) (r : Results) : (s.reply p q a r).cutTaken = s.cutTaken := rfl
@[simp] theorem State.reply_trees (p : Port) (q : Byte) (a : Status) (r : Results) : (s.reply p q a r).trees = s.trees := rfl
@[simp] theorem State.reply_roster (p : Port) (q : Byte) (a : Status) (r : Results) : (s.reply p q a r).roster = s.roster := rfl
@[simp] theorem State.reply_admissions (p : Port) (q : Byte) (a : Status) (r : Results) : (s.reply p q a r).admissions = s.admissions := rfl
@[simp] theorem State.reply_openMode (p : Port) (q : Byte) (a : Status) (r : Results) : (s.reply p q a r).openMode = s.openMode := rfl
@[simp] theorem State.reply_routes (p : Port) (q : Byte) (a : Status) (r : Results) : (s.reply p q a r).routes = s.routes := rfl
@[simp] theorem State.reply_queue (p : Port) (q : Byte) (a : Status) (r : Results) : (s.reply p q a r).queue = s.queue := rfl
@[simp] theorem State.reply_tickets (p : Port) (q : Byte) (a : Status) (r : Results) : (s.reply p q a r).tickets = s.tickets := rfl
@[simp] theorem State.reply_band (p : Port) (q : Byte) (a : Status) (r : Results) : (s.reply p q a r).band = s.band := rfl
@[simp] theorem State.reply_meters (p : Port) (q : Byte) (a : Status) (r : Results) : (s.reply p q a r).meters = s.meters := rfl
@[simp] theorem State.reply_watches (p : Port) (q : Byte) (a : Status) (r : Results) : (s.reply p q a r).watches = s.watches := rfl
@[simp] theorem State.reply_journal (p : Port) (q : Byte) (a : Status) (r : Results) : (s.reply p q a r).journal = s.journal := rfl
@[simp] theorem State.reply_upBuffer (p : Port) (q : Byte) (a : Status) (r : Results) : (s.reply p q a r).upBuffer = s.upBuffer := rfl
@[simp] theorem State.reply_delivered (p : Port) (q : Byte) (a : Status) (r : Results) : (s.reply p q a r).delivered = s.delivered := rfl
@[simp] theorem State.reply_heldPacket (p : Port) (q : Byte) (a : Status) (r : Results) : (s.reply p q a r).heldPacket = s.heldPacket := rfl
@[simp] theorem State.reply_pending (p : Port) (q : Byte) (a : Status) (r : Results) : (s.reply p q a r).pending = s.pending := rfl

@[simp] theorem State.refuse_round (p : Port) (q : Byte) (a : Status) : (s.refuse p q a).round = s.round := rfl
@[simp] theorem State.refuse_cutTaken (p : Port) (q : Byte) (a : Status) : (s.refuse p q a).cutTaken = s.cutTaken := rfl
@[simp] theorem State.refuse_trees (p : Port) (q : Byte) (a : Status) : (s.refuse p q a).trees = s.trees := rfl
@[simp] theorem State.refuse_roster (p : Port) (q : Byte) (a : Status) : (s.refuse p q a).roster = s.roster := rfl
@[simp] theorem State.refuse_admissions (p : Port) (q : Byte) (a : Status) : (s.refuse p q a).admissions = s.admissions := rfl
@[simp] theorem State.refuse_openMode (p : Port) (q : Byte) (a : Status) : (s.refuse p q a).openMode = s.openMode := rfl
@[simp] theorem State.refuse_routes (p : Port) (q : Byte) (a : Status) : (s.refuse p q a).routes = s.routes := rfl
@[simp] theorem State.refuse_queue (p : Port) (q : Byte) (a : Status) : (s.refuse p q a).queue = s.queue := rfl
@[simp] theorem State.refuse_tickets (p : Port) (q : Byte) (a : Status) : (s.refuse p q a).tickets = s.tickets := rfl
@[simp] theorem State.refuse_band (p : Port) (q : Byte) (a : Status) : (s.refuse p q a).band = s.band := rfl
@[simp] theorem State.refuse_meters (p : Port) (q : Byte) (a : Status) : (s.refuse p q a).meters = s.meters := rfl
@[simp] theorem State.refuse_watches (p : Port) (q : Byte) (a : Status) : (s.refuse p q a).watches = s.watches := rfl
@[simp] theorem State.refuse_journal (p : Port) (q : Byte) (a : Status) : (s.refuse p q a).journal = s.journal := rfl
@[simp] theorem State.refuse_upBuffer (p : Port) (q : Byte) (a : Status) : (s.refuse p q a).upBuffer = s.upBuffer := rfl
@[simp] theorem State.refuse_delivered (p : Port) (q : Byte) (a : Status) : (s.refuse p q a).delivered = s.delivered := rfl
@[simp] theorem State.refuse_heldPacket (p : Port) (q : Byte) (a : Status) : (s.refuse p q a).heldPacket = s.heldPacket := rfl
@[simp] theorem State.refuse_pending (p : Port) (q : Byte) (a : Status) : (s.refuse p q a).pending = s.pending := rfl

end Sys2Proof.Machine
end

