-- ==== Sys2Proof/Laws/Store.lean ====
section
/-! SUPPORT. Stores and the one-per-tree, one-per-port containers: reading after writing, and the canonical form. -/

namespace Sys2Proof.Machine

variable {α : Type}

/-! ## Stores -/

@[simp] theorem Store.read_nil (k : Nat) : Store.read k ([] : Store α) = none := rfl

theorem Store.read_cons (k k' : Nat) (v : α) (st : Store α) :
    Store.read k ((k', v) :: st) = if k = k' then some v else Store.read k st := rfl

@[simp] theorem Store.read_write_self (k : Nat) (v : α) (st : Store α) : Store.read k (Store.write k v st) = some v := by
  induction st with
  | nil => simp [Store.write, Store.read]
  | cons e st ih =>
    obtain ⟨k', v'⟩ := e
    unfold Store.write
    split
    · simp [Store.read]
    · split
      · simp [Store.read]
      · simp [Store.read, *]

theorem Store.read_write_ne {k k' : Nat} (v : α) (st : Store α) (h : k' ≠ k) :
    Store.read k' (Store.write k v st) = Store.read k' st := by
  induction st with
  | nil => simp [Store.write, Store.read, h]
  | cons e st ih =>
    obtain ⟨k1, v1⟩ := e
    unfold Store.write
    split
    · simp [Store.read, h]
    · split
      · rename_i h1
        simp [Store.read, h, ← h1]
      · simp [Store.read, ih]

@[simp] theorem Store.read_erase_self (k : Nat) (st : Store α) : Store.read k (Store.erase k st) = none := by
  induction st with
  | nil => rfl
  | cons e st ih =>
    obtain ⟨k1, v1⟩ := e
    by_cases h : k1 = k
    · simpa [Store.erase, h] using ih
    · simpa [Store.erase, h, Store.read, Ne.symm h] using ih

theorem Store.read_erase_ne {k k' : Nat} (st : Store α) (h : k' ≠ k) :
    Store.read k' (Store.erase k st) = Store.read k' st := by
  induction st with
  | nil => rfl
  | cons e st ih =>
    obtain ⟨k1, v1⟩ := e
    by_cases h1 : k1 = k
    · subst h1
      simpa [Store.erase, Store.read, h] using ih
    · by_cases h2 : k' = k1
      · simp [Store.erase, Store.read, h1, h2]
      · simpa [Store.erase, Store.read, h1, h2] using ih

theorem Store.read_modify (k k' : Nat) (f : α → α) (st : Store α) :
    Store.read k' (Store.modify k f st) = if k' = k then (Store.read k' st).map f else Store.read k' st := by
  induction st with
  | nil => simp [Store.modify, Store.read]
  | cons e st ih =>
    obtain ⟨k1, v1⟩ := e
    by_cases h1 : k1 = k <;> by_cases h2 : k' = k1 <;> by_cases h3 : k' = k <;>
      simp_all [Store.modify, Store.read]

@[simp] theorem Store.read_modify_self (k : Nat) (f : α → α) (st : Store α) :
    Store.read k (Store.modify k f st) = (Store.read k st).map f := by simp [Store.read_modify]

theorem Store.mem_write {k : Nat} {v : α} {st : Store α} {x : Nat × α} (h : x ∈ Store.write k v st) :
    x = (k, v) ∨ x ∈ st := by
  induction st with
  | nil => simpa [Store.write] using h
  | cons e st ih =>
    obtain ⟨k1, v1⟩ := e
    unfold Store.write at h
    split at h
    · simpa using h
    · split at h
      · simp only [List.mem_cons] at h ⊢
        tauto
      · simp only [List.mem_cons] at h ⊢
        rcases h with h | h
        · exact .inr (.inl h)
        · rcases ih h with h | h
          · exact .inl h
          · exact .inr (.inr h)

/-- A write keeps the canonical form. -/
theorem Store.wf_write (k : Nat) (v : α) (st : Store α) (h : Store.Wf st) : Store.Wf (Store.write k v st) := by
  induction st with
  | nil => simp [Store.write, Store.Wf]
  | cons e st ih =>
    obtain ⟨k1, v1⟩ := e
    have h' := List.pairwise_cons.mp h
    unfold Store.write
    split
    · rename_i hk
      refine List.pairwise_cons.mpr ⟨?_, h⟩
      intro x hx
      rcases List.mem_cons.mp hx with rfl | hx
      · exact hk
      · exact lt_trans hk (h'.1 x hx)
    · split
      · rename_i hk
        subst hk
        exact List.pairwise_cons.mpr ⟨h'.1, h'.2⟩
      · rename_i h1 h2
        refine List.pairwise_cons.mpr ⟨?_, ih h'.2⟩
        intro x hx
        rcases Store.mem_write hx with rfl | hx
        · simp only
          omega
        · exact h'.1 x hx

/-- An erasure keeps the canonical form. -/
theorem Store.wf_erase (k : Nat) (st : Store α) (h : Store.Wf st) : Store.Wf (Store.erase k st) :=
  List.Pairwise.filter _ h

/-- Filtering keeps the canonical form. -/
theorem Store.wf_filter (f : Nat × α → Bool) (st : Store α) (h : Store.Wf st) : Store.Wf (st.filter f) :=
  List.Pairwise.filter _ h

/-- A map that keeps keys keeps the canonical form. -/
theorem Store.wf_map (f : Nat × α → Nat × α) (hf : ∀ x, (f x).1 = x.1) (st : Store α) (h : Store.Wf st) :
    Store.Wf (st.map f) := by
  refine List.pairwise_map.mpr (h.imp ?_)
  intro a b hab
  simpa [hf] using hab

/-- Changing a value keeps the canonical form. -/
theorem Store.wf_modify (k : Nat) (f : α → α) (st : Store α) (h : Store.Wf st) : Store.Wf (Store.modify k f st) :=
  Store.wf_map _ (fun x => by split <;> rfl) st h

/-- In canonical form an entry of the store is what its key reads. -/
theorem Store.read_of_mem {st : Store α} (h : Store.Wf st) {x : Nat × α} (hx : x ∈ st) : Store.read x.1 st = some x.2 := by
  induction st with
  | nil => simp at hx
  | cons e st ih =>
    obtain ⟨k1, v1⟩ := e
    have h' := List.pairwise_cons.mp h
    rcases List.mem_cons.mp hx with rfl | hx
    · simp [Store.read]
    · have := h'.1 x hx
      have hne : x.1 ≠ k1 := by simp only at this; omega
      simpa [Store.read, hne] using ih h'.2 hx

/-- What a key reads is an entry of the store. -/
theorem Store.mem_of_read {k : Nat} {v : α} {st : Store α} (h : Store.read k st = some v) : (k, v) ∈ st := by
  induction st with
  | nil => simp at h
  | cons e st ih =>
    obtain ⟨k1, v1⟩ := e
    by_cases hk : k = k1
    · subst hk
      simp [Store.read] at h
      simp [h]
    · simp [Store.read, hk] at h
      exact List.mem_cons_of_mem _ (ih h)

/-- What a key holds after some pairs are taken out of a canonical store. -/
theorem Store.read_filter {st : Store α} (h : Store.Wf st) (f : Nat × α → Bool) (k : Nat) (v : α) :
    Store.read k (st.filter f) = some v ↔ Store.read k st = some v ∧ f (k, v) = true := by
  constructor
  · intro hr
    obtain ⟨hm, hf⟩ := List.mem_filter.1 (Store.mem_of_read hr)
    exact ⟨Store.read_of_mem h hm, hf⟩
  · rintro ⟨hr, hf⟩
    exact Store.read_of_mem (Store.wf_filter f st h) (List.mem_filter.2 ⟨Store.mem_of_read hr, hf⟩)

/-- Of two writes of one key the later one stands. -/
@[simp] theorem Store.write_write (k : Nat) (v v' : α) (st : Store α) :
    Store.write k v (Store.write k v' st) = Store.write k v st := by
  induction st with
  | nil => simp [Store.write]
  | cons x rest ih =>
    simp only [Store.write]
    split
    · simp [Store.write]
    · split
      · simp [Store.write]
      · simp [Store.write, *]

/-! ## One per tree or band -/

@[simp] theorem Quad.get_set_self (q : Quad α) (i : Fin 4) (v : α) : (q.set i v).get i = v := by
  fin_cases i <;> rfl

theorem Quad.get_set_ne (q : Quad α) {i j : Fin 4} (v : α) (h : j ≠ i) : (q.set i v).get j = q.get j := by
  fin_cases i <;> fin_cases j <;> first | rfl | exact absurd rfl h

theorem Quad.get_set (q : Quad α) (i j : Fin 4) (v : α) : (q.set i v).get j = if j = i then v else q.get j := by
  split
  · subst_vars; simp
  · exact q.get_set_ne v ‹_›

@[simp] theorem Quad.get_all (v : α) (i : Fin 4) : (Quad.all v).get i = v := by fin_cases i <;> rfl

/-- Two quads with the same members are the same. -/
theorem Quad.ext_get {q q' : Quad α} (h : ∀ i, q.get i = q'.get i) : q = q' := by
  obtain ⟨a, b, c, d⟩ := q
  obtain ⟨a', b', c', d'⟩ := q'
  have h0 := h 0
  have h1 := h 1
  have h2 := h 2
  have h3 := h 3
  simp only [Quad.get] at h0 h1 h2 h3
  subst h0 h1 h2 h3
  rfl

/-! ## One per port -/

@[simp] theorem Trio.get_set_self (q : Trio α) (p : Port) (v : α) : (q.set p v).get p = v := by cases p <;> rfl

theorem Trio.get_set_ne (q : Trio α) {p p' : Port} (v : α) (h : p' ≠ p) : (q.set p v).get p' = q.get p' := by
  cases p <;> cases p' <;> first | rfl | exact absurd rfl h

theorem Trio.get_set (q : Trio α) (p p' : Port) (v : α) : (q.set p v).get p' = if p' = p then v else q.get p' := by
  split
  · subst_vars; simp
  · exact q.get_set_ne v ‹_›

@[simp] theorem Trio.set_set (q : Trio α) (p : Port) (v v' : α) : (q.set p v).set p v' = q.set p v' := by cases p <;> rfl

@[simp] theorem Trio.set_get (q : Trio α) (p : Port) : q.set p (q.get p) = q := by cases p <;> rfl

@[simp] theorem Quad.set_set (q : Quad α) (i : Fin 4) (v v' : α) : (q.set i v).set i v' = q.set i v' := by
  fin_cases i <;> rfl

@[simp] theorem Quad.set_get (q : Quad α) (i : Fin 4) : q.set i (q.get i) = q := by fin_cases i <;> rfl

end Sys2Proof.Machine
end

