-- ==== Sys2Proof/Laws/Ops.lean ====
section
/-! SUPPORT. The shared operations: what each does to the tree, port, slot or queue it names, and that it leaves the others. -/

namespace Sys2Proof.Machine

variable (s : State)

/-! ## Trees and ports -/

@[simp] theorem State.setTree_tree (t : TreeId) (x : Tree) : (s.setTree t x).tree t = x := by
  simp [State.setTree, State.tree]

theorem State.setTree_tree_ne {t t' : TreeId} (x : Tree) (h : t' ≠ t) : (s.setTree t x).tree t' = s.tree t' := by
  simp [State.setTree, State.tree, Quad.get_set_ne _ _ h]

@[simp] theorem State.modTree_tree (t : TreeId) (f : Tree → Tree) : (s.modTree t f).tree t = f (s.tree t) := by
  simp [State.modTree]

theorem State.modTree_tree_ne {t t' : TreeId} (f : Tree → Tree) (h : t' ≠ t) : (s.modTree t f).tree t' = s.tree t' := by
  simp [State.modTree, State.setTree_tree_ne _ _ h]

@[simp] theorem State.modEngine_tree (t : TreeId) (f : Engine → Engine) :
    (s.modEngine t f).tree t = { s.tree t with engine := f (s.tree t).engine } := by simp [State.modEngine]

@[simp] theorem State.modLight_tree (t : TreeId) (f : Light → Light) :
    (s.modLight t f).tree t = { s.tree t with light := f (s.tree t).light } := by simp [State.modLight]

@[simp] theorem State.modChecker_tree (t : TreeId) (f : Checker → Checker) :
    (s.modChecker t f).tree t = { s.tree t with checker := f (s.tree t).checker } := by simp [State.modChecker]

@[simp] theorem State.modFramer_tree (t : TreeId) (f : Framer → Framer) :
    (s.modFramer t f).tree t = { s.tree t with framer := f (s.tree t).framer } := by simp [State.modFramer]

@[simp] theorem State.setPort_port (p : Port) (x : PortState) : (s.setPort p x).port p = x := by
  simp [State.setPort, State.port]

theorem State.setPort_port_ne {p p' : Port} (x : PortState) (h : p' ≠ p) : (s.setPort p x).port p' = s.port p' := by
  simp [State.setPort, State.port, Trio.get_set_ne _ _ h]

@[simp] theorem State.modPort_port (p : Port) (f : PortState → PortState) : (s.modPort p f).port p = f (s.port p) := by
  simp [State.modPort]

theorem State.modPort_port_ne {p p' : Port} (f : PortState → PortState) (h : p' ≠ p) :
    (s.modPort p f).port p' = s.port p' := by simp [State.modPort, State.setPort_port_ne _ _ h]

/-- A tree is what the quad of trees holds; operations that leave the trees leave it. -/
theorem State.tree_of_trees {s s' : State} (h : s'.trees = s.trees) (t : TreeId) : s'.tree t = s.tree t := by
  simp [State.tree, h]

/-- Operations that leave the ports leave each of them. -/
theorem State.port_of_ports {s s' : State} (h : s'.ports = s.ports) (p : Port) : s'.port p = s.port p := by
  simp [State.port, h]

/-! ## Slots -/

/-- Operations that leave the roster leave each slot. -/
theorem State.entry_of_roster {s s' : State} (h : s'.roster = s.roster) (t : TreeId) (tag : Nat) :
    s'.entry t tag = s.entry t tag := by simp [State.entry, h]

@[simp] theorem State.setEntry_entry (t : TreeId) (tag : Nat) (e : Entry) : (s.setEntry t tag e).entry t tag = some e := by
  simp [State.setEntry, State.entry]

theorem State.setEntry_entry_ne {t t' : TreeId} {tag tag' : Nat} (e : Entry) (h : slotOf t' tag' ≠ slotOf t tag) :
    (s.setEntry t tag e).entry t' tag' = s.entry t' tag' := by
  simp [State.setEntry, State.entry, Store.read_write_ne _ _ h]

@[simp] theorem State.modEntry_entry (t : TreeId) (tag : Nat) (f : Entry → Entry) :
    (s.modEntry t tag f).entry t tag = (s.entry t tag).map f := by simp [State.modEntry, State.entry]

theorem State.modEntry_entry_ne {t t' : TreeId} {tag tag' : Nat} (f : Entry → Entry) (h : slotOf t' tag' ≠ slotOf t tag) :
    (s.modEntry t tag f).entry t' tag' = s.entry t' tag' := by
  simp [State.modEntry, State.entry, Store.read_modify, h]

@[simp] theorem State.vacate_entry (t : TreeId) (tag : Nat) : (s.vacate t tag).entry t tag = none := by
  simp [State.vacate, State.entry]

theorem State.vacate_entry_ne {t t' : TreeId} {tag tag' : Nat} (h : slotOf t' tag' ≠ slotOf t tag) :
    (s.vacate t tag).entry t' tag' = s.entry t' tag' := by
  simp [State.vacate, State.entry, Store.read_erase_ne _ h]

/-- Two slots with tags in range are the same slot only for the same tree and tag (R17). -/
theorem slotOf_inj {t t' : TreeId} {tag tag' : Nat} (h : tagOk tag = true) (h' : tagOk tag' = true)
    (he : slotOf t tag = slotOf t' tag') : t = t' ∧ tag = tag' := by
  simp only [tagOk, Bool.and_eq_true, decide_eq_true_eq] at h h'
  unfold slotOf at he
  have : t.val = t'.val := by omega
  refine ⟨Fin.ext this, ?_⟩
  rw [this] at he
  omega

/-- The tree and tag of a slot are those it was numbered by (R17). -/
theorem slot_of_slotOf {t : TreeId} {tag : Nat} (h : tagOk tag = true) :
    slotTree (slotOf t tag) = t.val ∧ slotTag (slotOf t tag) = tag ∧ slotOf t tag < 512 := by
  simp only [tagOk, Bool.and_eq_true, decide_eq_true_eq] at h
  have := t.isLt
  unfold slotOf slotTree slotTag
  omega

/-! ## Answers and notices -/

@[simp] theorem State.reply_port (p : Port) (q : Byte) (a : Status) (r : Results) :
    (s.reply p q a r).port p = { s.port p with sent := (s.port p).sent ++ [{ seq := q, status := a, results := r }] } := by
  simp [State.reply]

theorem State.reply_port_ne {p p' : Port} (q : Byte) (a : Status) (r : Results) (h : p' ≠ p) :
    (s.reply p q a r).port p' = s.port p' := by simp [State.reply, State.modPort_port_ne _ _ h]

/-- What raising a notice does to its port: the queue takes the occurrence, and the line is judged afresh (R179, R180). -/
@[simp] theorem State.raiseAt_port (p : Port) (k : Option TreeId) (d : Detail) :
    (s.raiseAt p k d).port p =
      { s.port p with
        notices := noticesAfter s.round k d (s.port p).notices
        line := lineCondition (s.port p).threshold (noticesAfter s.round k d (s.port p).notices) } := by
  simp [State.raiseAt, PortState.judgeLine]

theorem State.raiseAt_port_ne {p p' : Port} (k : Option TreeId) (d : Detail) (h : p' ≠ p) :
    (s.raiseAt p k d).port p' = s.port p' := by simp [State.raiseAt, State.modPort_port_ne _ _ h]

/-- The keys of a notice queue after an occurrence: as before where its key was queued, with its key added at the back where
it was not (R179). -/
theorem noticesAfter_keys (round : Round) (k : Option TreeId) (d : Detail) (q : List NoticeEntry) :
    (noticesAfter round k d q).map (fun e => (e.kind, e.tree)) =
      if (d.kind, k) ∈ q.map (fun e => (e.kind, e.tree)) then q.map (fun e => (e.kind, e.tree))
      else q.map (fun e => (e.kind, e.tree)) ++ [(d.kind, k)] := by
  induction q with
  | nil => simp [noticesAfter]
  | cons e q ih =>
    unfold noticesAfter
    split
    · rename_i h
      simp [h.1, h.2]
    · rename_i h
      have hne : (d.kind, k) ≠ (e.kind, e.tree) := by
        intro hc
        injection hc with h1 h2
        exact h ⟨h1.symm, h2.symm⟩
      simp only [List.map_cons, ih, List.mem_cons, hne, false_or]
      split <;> simp

/-! ## Entries -/

@[simp] theorem Entry.owe_body (e : Entry) (k : OrderKind) : (e.owe k).body = e.body := rfl
@[simp] theorem Entry.owe_serial (e : Entry) (k : OrderKind) : (e.owe k).serial = e.serial := rfl
@[simp] theorem Entry.owe_occupied (e : Entry) (k : OrderKind) : (e.owe k).occupied = e.occupied := rfl
@[simp] theorem Entry.owe_contract (e : Entry) (k : OrderKind) : (e.owe k).contract = e.contract := rfl
@[simp] theorem Entry.owe_booked (e : Entry) (k : OrderKind) : (e.owe k).booked = e.booked := rfl
@[simp] theorem Entry.owe_capped (e : Entry) (k : OrderKind) : (e.owe k).capped = e.capped := rfl
@[simp] theorem Entry.owe_owed (e : Entry) (k : OrderKind) : (e.owe k).owed = e.owed.add k := rfl

@[simp] theorem Entry.setHushed_serial (e : Entry) (b : Bool) : (e.setHushed b).serial = e.serial := by
  unfold Entry.setHushed; split <;> rfl
@[simp] theorem Entry.setHushed_owed (e : Entry) (b : Bool) : (e.setHushed b).owed = e.owed := by
  unfold Entry.setHushed; split <;> rfl
@[simp] theorem Entry.setHushed_state (e : Entry) (b : Bool) : (e.setHushed b).state = e.state := by
  obtain ⟨_, _, _, _, _, _, body⟩ := e
  cases body <;> rfl

@[simp] theorem Entry.wake_serial (e : Entry) : e.wake.serial = e.serial := by unfold Entry.wake; split <;> rfl
@[simp] theorem Entry.wake_body (e : Entry) : e.wake.body = e.body := by unfold Entry.wake; split <;> rfl
@[simp] theorem Entry.hush_serial (e : Entry) : e.hush.serial = e.serial := by
  unfold Entry.hush; split
  · split <;> rfl
  · simp

/-! ## Saturation -/

/-- A saturating sum never passes its largest value (R149). -/
theorem satAdd_le (limit n k : Nat) : (satAdd limit n k).1 ≤ limit := by
  unfold satAdd; split <;> simp_all

end Sys2Proof.Machine
end

