-- ==== Sys2Proof/Laws/Rounds.lean ====
section
/-! SUPPORT. The cut, the judgement of grants, the hunt, the journal and the light of a window: what each shared operation can do, said once. -/

namespace Sys2Proof.Machine

variable (s : State)

/-! ## The cut -/

/-- A second cut of one round does nothing. -/
theorem State.takeCut_taken (h : s.cutTaken = true) : s.takeCut = s := by simp [State.takeCut, h]

/-- The cut of a round builds the four trees on what pass, offers and hold limits left. -/
theorem State.takeCut_open (h : s.cutTaken = false) : s.takeCut = allFour.foldl State.buildPlan s.openCut := by
  simp [State.takeCut, h]

/-- A command that names one event of the cut is the cut, or nothing (log entry 3). -/
theorem State.cutWhere_cases (b : Bool) : s.cutWhere b = s ∨ (b = true ∧ s.cutWhere b = s.takeCut) := by
  cases b <;> simp [State.cutWhere]

/-- The offer to a held request: nothing, or its slot is emptied, it enters STAGED or is answered OVERBOOK, and the waiting
request is taken (R117, R109). -/
theorem State.offerHeld_cases (p : Port) :
    s.offerHeld p = s ∨
      ∃ h : Held, (s.port p).inProgress = some h ∧ s.mayEnter p = true ∧
        (((s.freeSlot p).bookingPasses h.change h.roundTaken = true ∧
            s.offerHeld p =
              (((s.freeSlot p).enterQueue p h.change h.roundTaken).reply p h.seq .staged .nothing).takeWaiting p) ∨
          ((s.freeSlot p).bookingPasses h.change h.roundTaken = false ∧
            s.offerHeld p = ((s.freeSlot p).refuse p h.seq .overbook).takeWaiting p)) := by
  unfold State.offerHeld
  split
  · exact .inl rfl
  · rename_i h hp
    split
    · rename_i hm
      refine .inr ⟨h, hp, hm, ?_⟩
      cases hb : (s.freeSlot p).bookingPasses h.change h.roundTaken <;> simp [hb]
    · exact .inl rfl

/-- The hold limit of a port: nothing, or the held request is discarded with HELD_TOO_LONG and the waiting one is taken (R118). -/
theorem State.expireHeld_cases (p : Port) :
    s.expireHeld p = s ∨
      ∃ h : Held, (s.port p).inProgress = some h ∧ s.heldExpired p = true ∧
        s.expireHeld p = (((s.freeSlot p).dropHeld h).refuse p h.seq .heldTooLong).takeWaiting p := by
  unfold State.expireHeld
  split
  · exact .inl rfl
  · rename_i h hp
    split
    · rename_i he
      exact .inr ⟨h, hp, he, rfl⟩
    · exact .inl rfl

/-! ## The judgement of grants -/

/-- A grant that was given to another occupant only takes the outcome of a burst that ran on (R78). -/
theorem State.runOn_of_not_granted {t : TreeId} {g : Grant} (r : Round) (h : s.grantee t g = none) :
    s.runOn t r g = s.setMark t r g.tag (.heard false g.latestEnd true true) := by simp [State.runOn, State.damageBurst, h]

/-- A burst whose light ended after the grant's latest end gives the grant the outcome that BURST_RUN_ON gives it (R76). -/
theorem State.burstEnds_late {t : TreeId} {r : Round} {b : Burst} {g : Grant}
    (hg : (s.grantsOf t r).find? (fun x => x.accepts b.start) = some g) (hl : g.latestEnd < b.stop) :
    s.burstEnds t r b = s.burstRunsOn t r b.start := by simp [State.burstEnds, State.burstRunsOn, hg, hl]

@[simp] theorem State.setMark_round (t : TreeId) (r : Round) (tag : Nat) (m : GrantMark) :
    (s.setMark t r tag m).round = s.round := rfl
@[simp] theorem State.setMark_roster (t : TreeId) (r : Round) (tag : Nat) (m : GrantMark) :
    (s.setMark t r tag m).roster = s.roster := rfl
@[simp] theorem State.setMark_ports (t : TreeId) (r : Round) (tag : Nat) (m : GrantMark) :
    (s.setMark t r tag m).ports = s.ports := rfl
@[simp] theorem State.setMark_meters (t : TreeId) (r : Round) (tag : Nat) (m : GrantMark) :
    (s.setMark t r tag m).meters = s.meters := rfl
@[simp] theorem State.setMark_watches (t : TreeId) (r : Round) (tag : Nat) (m : GrantMark) :
    (s.setMark t r tag m).watches = s.watches := rfl
@[simp] theorem State.setMark_queue (t : TreeId) (r : Round) (tag : Nat) (m : GrantMark) :
    (s.setMark t r tag m).queue = s.queue := rfl
@[simp] theorem State.setMark_journal (t : TreeId) (r : Round) (tag : Nat) (m : GrantMark) :
    (s.setMark t r tag m).journal = s.journal := rfl
@[simp] theorem State.setMark_upBuffer (t : TreeId) (r : Round) (tag : Nat) (m : GrantMark) :
    (s.setMark t r tag m).upBuffer = s.upBuffer := rfl
@[simp] theorem State.setMark_entry (t t' : TreeId) (r : Round) (tag tag' : Nat) (m : GrantMark) :
    (s.setMark t r tag m).entry t' tag' = s.entry t' tag' := rfl

/-- What is noted of a grant of the round in progress is read back. -/
@[simp] theorem State.markOf_setMark (t : TreeId) (tag : Nat) (m : GrantMark) :
    (s.setMark t s.round tag m).markOf t s.round tag = some m := by
  simp [State.markOf, State.setMark]

/-- Noting a grant changes nothing of its tree but the checker. -/
theorem State.setMark_tree (t : TreeId) (r : Round) (tag : Nat) (m : GrantMark) :
    ∃ c : Checker, (s.setMark t r tag m).tree t = { s.tree t with checker := c } :=
  ⟨_, State.modChecker_tree s t _⟩

/-! ## The hunt -/

@[simp] theorem State.formStep_nil (t : TreeId) (h : Hunt) : s.formStep t h [] = s.unresolved t h .empty none := rfl
@[simp] theorem State.formStep_one (t : TreeId) (h : Hunt) (c : Nat) : s.formStep t h [c] = s.beginTrial t h c := rfl
@[simp] theorem State.formStep_more (t : TreeId) (h : Hunt) (a b : Nat) (rest : List Nat) :
    s.formStep t h (a :: b :: rest) = s.searchStep t h (a :: b :: rest) := rfl

/-- A tree that is not in HUNT is left as it is by an entry that leaves (R139). -/
theorem State.leaveHunt_of_not_hunting (t : TreeId) (tag : Nat) (h : s.hunting t = false) : s.leaveHunt t tag = s := by
  have : s.huntOf t = none := by simpa [State.hunting] using h
  simp [State.leaveHunt, this]

/-! ## The journal -/

/-- A rise of the held count raises JOURNAL_HIGH at the mark, and changes nothing below it or above it (R170). -/
theorem State.journalRose_cases (before : Nat) :
    s.journalRose before = s ∨
    (before < s.journal.mark ∧ s.journal.mark ≤ s.journal.records.length ∧ s.journalRose before =
      s.raiseKeyless (.journalHigh s.journal.records.length s.journal.booked s.journal.mark s.round)) := by
  by_cases h : before < s.journal.mark ∧ s.journal.mark ≤ s.journal.records.length
  · exact .inr ⟨h.1, h.2, if_pos h⟩
  · exact .inl (if_neg h)

@[simp] theorem State.journalRose_journal (before : Nat) : (s.journalRose before).journal = s.journal := by
  obtain h | ⟨-, -, h⟩ := s.journalRose_cases before <;> simp [h]

@[simp] theorem State.writeRecord_journal (r : Record) :
    (s.writeRecord r).journal = { s.journal with records := s.journal.records ++ [r] } := by
  simp [State.writeRecord, State.appendRecord]

/-- A FINAL record stands in its booked place: held and booked places together stay as many (R168). -/
theorem State.finalRecord_places {t : TreeId} {tag : Nat} {m : Meters} (e : Entry) (hm : s.meterOf t tag = some m)
    (hb : 0 < s.journal.booked) :
    (s.finalRecord t tag e).journal.records.length + (s.finalRecord t tag e).journal.booked =
      s.journal.records.length + s.journal.booked := by
  simp [State.finalRecord, hm, State.rearm, State.releasePlace, State.appendRecord]
  omega

/-! ## The light of a window -/

/-- The end of the light gathered so far: what begins before it overlaps a burst of it. -/
def EndsAt (cur : List Burst) (upTo : Int) : Prop := ∀ t : Int, t < upTo ↔ ∃ a ∈ cur, t < a.stop

theorem gather_within (cur tail rest : List Burst) (upTo : Int) (hu : EndsAt cur upTo)
    (h : ∀ (front back : List Burst) (b : Burst), tail = front ++ b :: back → ∃ a ∈ cur ++ front, b.start < a.stop) :
    ∃ upTo', EndsAt (cur ++ tail) upTo' ∧ gather cur upTo (tail ++ rest) = gather (cur ++ tail) upTo' rest := by
  induction tail generalizing cur upTo with
  | nil => exact ⟨upTo, by simpa using hu, by simp⟩
  | cons b tail ih =>
    have hb : b.start < upTo := (hu _).2 (by simpa using h [] tail b rfl)
    have hu' : EndsAt (cur ++ [b]) (max upTo b.stop) := fun t => by
      simp [hu t, or_and_right, exists_or]
    obtain ⟨u, h1, h2⟩ := ih (cur ++ [b]) _ hu' fun front back c e => by
      simpa using h (b :: front) back c (by simp [e])
    exact ⟨u, by simpa using h1, by simpa [gather, hb] using h2⟩

/-- Light in its stretches is gathered into those stretches (R47, R54). -/
theorem stretches_flatten (groups : List (List Burst)) (h : InStretches groups) : stretches groups.flatten = groups := by
  obtain ⟨hn, hc, hp⟩ := h
  have key : ∀ (groups : List (List Burst)) (cur : List Burst) (upTo : Int), EndsAt cur upTo →
      (∀ x ∈ groups, x ≠ []) →
      (∀ x ∈ groups, ∀ (front back : List Burst) (b : Burst), x = front ++ b :: back → front ≠ [] →
        ∃ a ∈ front, b.start < a.stop) →
      (cur :: groups).Pairwise (fun x y => ∀ a ∈ x, ∀ b ∈ y, a.stop ≤ b.start) →
      gather cur upTo groups.flatten = cur :: groups := by
    intro groups
    induction groups with
    | nil => intro cur upTo _ _ _ _; rfl
    | cons g rest ih =>
      intro cur upTo hu hn hc hp
      cases g with
      | nil => exact absurd rfl (hn [] (by simp))
      | cons b tail =>
        rw [List.pairwise_cons] at hp
        have hb : ¬ b.start < upTo := fun hlt => by
          obtain ⟨a, ha, hlt⟩ := (hu _).1 hlt
          have := hp.1 (b :: tail) (by simp) a ha b (by simp)
          omega
        obtain ⟨u, h1, h2⟩ := gather_within [b] tail rest.flatten b.stop (fun t => by simp) fun front back c e => by
          simpa using hc (b :: tail) (by simp) (b :: front) back c (by simp [e]) (by simp)
        have := ih (b :: tail) u h1 (fun x hx => hn x (by simp [hx])) (fun x hx => hc x (by simp [hx])) hp.2
        simpa [gather, hb] using h2.trans this
  match groups, hn, hc, hp with
  | [], _, _, _ => rfl
  | [] :: _, hn, _, _ => exact absurd rfl (hn [] (by simp)).1
  | (b :: tail) :: rest, hn, hc, hp =>
    obtain ⟨u, h1, h2⟩ := gather_within [b] tail rest.flatten b.stop (fun t => by simp) fun front back c e => by
      simpa using hc (b :: tail) (by simp) (b :: front) back c (by simp [e]) (by simp)
    have := key rest (b :: tail) u h1 (fun x hx => (hn x (by simp [hx])).1) (fun x hx => hc x (by simp [hx])) hp
    simpa [stretches] using h2.trans this

end Sys2Proof.Machine
end

