-- ==== Sys2Proof/Tests/Slice0.lean ====
section
/-! SUPPORT. Tests of the model: checks of WellFormed with an ill-formed command for each, messages written out from their
layout, single steps from the manual's own sequences, and a state and operands for the hypotheses of every statement. -/

set_option maxRecDepth 20000

namespace Sys2Proof.Tests

open Sys2Proof Sys2Proof.Machine

/-! ## Small states -/

/-- An ACTIVE body, nothing asked for yet. -/
def someActive : Active :=
  { e := 70000, missCount := 0, need := 0, credit := 0, lastGranted := none, history := [], hushed := false }

/-- A home of tree 0 with a contract of 10, 100, 1. -/
def home (serial : Serial) (body : Body) : Entry :=
  { serial := serial, occupied := 5, contract := { c := 10, p := 100, w := 1 }, booked := 10, capped := false,
    owed := Owed.none, body := body }

/-- The part in round 10 with tree 0 as given, and entries by slot. -/
def part (x : Tree) (entries : Store Entry) : State :=
  { State.reset with round := 10, trees := State.reset.trees.set 0 x, roster := entries }

/-- Tree 0 in a state, with plans. -/
def inState (phase : TreeState) (plans : List PlanRecord) : Tree := { resetTree with phase := phase, plans := plans }

/-- The plan of round 10: a dark window of 16 quanta, then a grant of tag 3 of 12 quanta. -/
def plan10 : PlanRecord :=
  { round := 10, settling := false, settlingNo := 0, dark := some 16, window := none,
    grants := [{ tag := 3, occupied := 5, start := 16, payload := 10, length := 12, kind := .data }], marks := [] }

/-- The settling plan of round 10 with a number. -/
def settling10 (no : Nat) : PlanRecord :=
  { plan10 with settling := true, settlingNo := no, grants := [] }

/-- A burst of tag 3, type 1, in the grant of plan10, with a report of 320 bytes and one packet of 2 bytes. -/
def burst3 : Burst :=
  { start := 544, stop := 864, checkOk := true,
    bytes := [3, 1, 0, 0, 1, 64, 0, 0, 0, 0, 0, 0, 0, 7, 0, 4, 0, 2, 9, 9] }

/-- The part RUNNING on tree 0 in round 10 under plan10, with tag 3 in a state. -/
def running (body : Body) : State := part (inState .running [plan10]) [(2, home 7 body)]

/-- The part after a command. -/
def after (c : Instr) (s : State) : Option State :=
  match exec c s with
  | .next t => some t
  | .fault _ => none
  | .refused _ => none

/-! ## WellFormed refuses what cannot come -/

theorem smoke_argument_too_wide : (Instr.startTree .line 0 256).wf = false := by decide
theorem smoke_message_not_whole : (Instr.requestArrival .line [0, 3, 16, 1]).wf = false := by decide
theorem smoke_message_too_long : (Instr.requestArrival .line [0, 1, 16, 1]).wf = false := by decide
theorem smoke_burst_backwards : (Instr.burstEnd 0 10 { burst3 with stop := 544 }).wf = false := by decide
theorem smoke_burst_without_header : (Instr.burstEnd 0 10 { burst3 with bytes := [3, 1] }).wf = false := by decide
theorem smoke_light_out_of_order :
    (Instr.callWindowEnd 0 [burst3, { burst3 with start := 500, stop := 520 }]).wf = false := by decide
theorem smoke_probe_light_out_of_order :
    (Instr.probeWindowEnd 0 [burst3, { burst3 with start := 500, stop := 520 }]).wf = false := by decide
theorem smoke_span_backwards : (Instr.grantEnd 0 10 3 [{ start := 5, stop := 5 }]).wf = false := by decide
theorem smoke_grant_tag_zero : (Instr.grantEnd 0 10 0 []).wf = false := by decide
theorem smoke_guard_tag_129 : (Instr.guardEnd 0 10 129 [] []).wf = false := by decide
theorem smoke_packet_tag_256 : (Instr.packetOffered 0 256 [1]).wf = false := by decide
theorem smoke_good : (Instr.setContract .accounting 1 3 128 1875 1875 255).wf = true := by decide

/-! ## Messages written out from section 12.1 -/

theorem test_message_fence : decodeMessage [0, 4, 52, 9, 1, 30] = some { seq := 9, ask := .request (.fence 1 30) } := by
  decide
theorem test_message_set_tree :
    decodeMessage [0, 7, 18, 1, 2, 1, 1, 0x38, 0x80] = some { seq := 1, ask := .request (.setTree 2 1 80000) } := by decide
theorem test_message_set_contract :
    decodeMessage [0, 9, 32, 5, 3, 128, 0, 40, 3, 32, 2] =
      some { seq := 5, ask := .request (.setContract 3 128 40 800 2) } := by decide
theorem test_message_fetch : decodeMessage [0, 3, 65, 0, 8] = some { seq := 0, ask := .request (.fetchNotices 8) } := by
  decide
theorem test_message_port_reset : decodeMessage [0, 2, 68, 7] = some { seq := 7, ask := .portReset } := by decide
theorem test_message_unknown : decodeMessage [0, 2, 70, 7] = some { seq := 7, ask := .malformed .unknownName } := by decide
theorem test_message_wrong_size : decodeMessage [0, 2, 16, 7] = some { seq := 7, ask := .malformed .wrongSize } := by decide
theorem test_message_incomplete : decodeMessage [0, 4, 52, 9, 1] = none := by decide

/-! ## Sizes of section 12 -/

/-- A usage record is 120 bytes (section 12.4). -/
theorem test_record_size :
    (Record.bytes { final := true, tree := 1, tag := 5, serial := 7, interval := 41, closedCut := 84001,
                    meters := zeroMeters 80000 false, contract := { c := 1, p := 2, w := 3 } }).length = 120 := by decide

/-! ## Single steps -/

/-- Section 1.2: START TREE of a DOWN tree makes it SETTLING, answered DONE. -/
theorem test_start_tree :
    exec (.startTree .line 1 2) State.reset =
      .next (({ State.reset with trees := State.reset.trees.set 2 { resetTree with phase := .settling } }).reply
        .line 1 .done .nothing) := by rfl

/-- Section 1.2: the sixteenth settling window at a baseline of 310 makes the tree RUNNING. -/
theorem test_settling_ends :
    (after (.darkWindowEnd 0 [{ time := 40, reading := 310 }]) (part (inState .settling [settling10 16]) [])).map
      (fun t => ((t.tree 0).phase, (t.tree 0).light.baseline)) = some (.running, 310) := by decide

/-- R55: T 80,000, N 0, lag 4,000: e is 76,000. -/
theorem test_echo_delay :
    ((running (.heard { heardRound := 1, tries := 0, keptDelay := none })).takeEcho 0 3 4000).entry 0 3 =
      some { home 7 (.timed { e := 76000, former := none, misses := 0, hushed := false }) with
        owed := { Owed.none with assign := true } } := by decide

/-- R79: a report of 320 bytes is a need of 10 quanta. -/
theorem test_burst_need :
    (after (.burstEnd 0 10 burst3) (running (.active someActive))).map (fun t => (t.entry 0 3, t.upBuffer.length)) =
      some (some (home 7 (.active { someActive with need := 10 })), 1) := by decide

/-- R76: a burst whose light ended 25 byte-times after its grant is damaged, its own light taken to end after 24. -/
theorem test_burst_ran_on :
    (after (.burstEnd 0 10 { burst3 with stop := 921 }) (running (.active someActive))).map
      (fun t => (t.markOf 0 10 3, t.entry 0 3, t.upBuffer)) =
      some (some (.heard false 920 true true), some (home 7 (.active { someActive with missCount := 0 })), []) := by decide

/-- R83: the fourth miss at S = 4 makes a home SILENT. -/
theorem test_silent_at_limit :
    (after (.grantEnd 0 10 3 []) (running (.active { someActive with missCount := 3 }))).map
      (fun t => t.slotState 0 3) = some .silent := by decide

/-- R168: the JOURNAL_HIGH of a FINAL record shows a sum of held and booked places that the record left as it was. -/
theorem test_final_record_keeps_sum :
    (({ running (.active someActive) with
        meters := [(2, zeroMeters 5 true)]
        journal := { State.reset.journal with booked := 1, mark := 1 } } : State).finalRecord 0 3
      (home 7 (.active someActive))).ports.accounting.notices.map NoticeEntry.detail = [.journalHigh 1 0 1 10] := by decide

/-- R9: the round number wraps to 0. -/
theorem test_round_wraps :
    (after .roundStart { State.reset with round := 4294967295 }).map State.round = some 0 := by decide

/-- R98, R105: a home with c = 10 and a need of 4 gets 4 payload quanta and 2 of overhead, from quantum 0. -/
theorem test_cut_grants :
    (after .cut (part (inState .running [])
      [(2, home 7 (.active { someActive with need := 4, lastGranted := some 9 }))])).map
      (fun t => (t.tree 0).plans.map PlanRecord.grants) =
    some [[{ tag := 3, occupied := 5, start := 0, payload := 4, length := 6, kind := .data }]] := by decide

/-! ## A state and operands for the hypotheses of each statement -/

theorem free_reset (p : Port) : PortFree State.reset p := by cases p <;> exact ⟨rfl, rfl⟩

theorem free_part (x : Tree) (entries : Store Entry) (p : Port) : PortFree (part x entries) p := by
  cases p <;> exact ⟨rfl, rfl⟩

theorem canonical_running (b : Body) : StoresCanonical (running b) :=
  ⟨by simp [running, part, Store.Wf], List.Pairwise.nil, List.Pairwise.nil, List.Pairwise.nil,
   by simp [running, part], by simp [running, part, State.reset]⟩

theorem sound_running (b : Body) : RosterSound (running b) :=
  ⟨canonical_running b, by simp [SerialsUnique, running, part]⟩

theorem canonical_part (x : Tree) (a b : Entry) : StoresCanonical (part x [(2, a), (3, b)]) :=
  ⟨by simp [part, Store.Wf], List.Pairwise.nil, List.Pairwise.nil, List.Pairwise.nil, by simp [part],
   by simp [part, State.reset]⟩

theorem sound_part (x : Tree) (a b : Entry) (h : a.serial ≠ b.serial) : RosterSound (part x [(2, a), (3, b)]) :=
  ⟨canonical_part x a b, by simpa [SerialsUnique, part] using h⟩

theorem open_part : QueueOpen (part resetTree []) .line := ⟨rfl, by decide⟩

/-- A held FENCE of the Supervisor port, taken in round 5. -/
def heldFence : Held := { seq := 1, change := .fence 0 3, roundTaken := 5, ticket := 0 }

/-- The part in round 10 with a request held at a port, and one waiting or none. -/
def holding (p : Port) (h : Held) (w : Option Arrived) : State :=
  let s := running (.active someActive)
  { s.setPort p { s.port p with inProgress := some h, waiting := w } with tickets := 1 }

theorem witness_StepRunsFrontCommand :
    ({ State.reset with pending := [.cut] } : State).pending = .cut :: [] ∧ State.reset.pending = [] := by decide

theorem witness_MessageRoundTrip : (Request.setWatch 7 3 128 3 255 281474976710655 2).wf = true := by decide

theorem witness_ArrivingMessageRunsItsRow :
    (Instr.fence .supervisor 5 3 128).request? = some (.supervisor, 5, .fence 3 128) ∧ (Request.fence 3 128).wf = true := by
  decide

theorem witness_RequestsNotCarriedOut_malformed :
    PortFree State.reset .line ∧ (70 : Byte).toNat ≠ 68 ∧ argWidths 70 = none ∧ (0 : Nat) < 65534 ∧
      (16 : Byte).toNat ≠ 68 ∧ argWidths 16 = some [1] ∧ [1].sum ≠ 2 ∧ 1022 < 1021 + 2 ∧ 65533 < 65534 ∧
      (67 : Byte).toNat ≠ 68 :=
  ⟨free_reset _, by decide⟩

theorem witness_RequestsNotCarriedOut_roles :
    PortFree State.reset .accounting ∧ PortFree State.reset .line ∧
      (Instr.startTree .accounting 1 0).request? = some (.accounting, 1, .startTree 0) ∧ (Request.startTree 0).code = 16 ∧
      (Instr.readTree .accounting 1 0).request? = some (.accounting, 1, .readTree 0) ∧ (Request.readTree 0).code = 29 ∧
      (Instr.setJournalMark .line 1 0).request? = some (.line, 1, .setJournalMark 0) ∧
      (Request.setJournalMark 0).code = 40 ∧ (Instr.setContract .line 1 0 1 0 1 1).request?.isSome = true ∧
      (Request.setContract 0 1 0 1 1).code = 32 ∧ (Request.setLightLimit 0 1 1).code = 48 ∧
      (Instr.readLight .line 1 0).request? = some (.line, 1, .readLight 0) ∧ (Request.readLight 0).code = 54 :=
  ⟨free_reset _, free_reset _, by decide⟩

theorem witness_PortSlotsAndReset :
    (Instr.readLight .supervisor 1 0).request? = some (.supervisor, 1, .readLight 0) ∧
      ((holding .supervisor heldFence none).port .supervisor).inProgress = some heldFence ∧
      ((holding .supervisor heldFence none).port .supervisor).waiting = none ∧
      ((holding .supervisor heldFence (some { seq := 1, ask := .request (.readLight 0) })).port .supervisor).waiting =
        some { seq := 1, ask := .request (.readLight 0) } ∧
      ((State.reset.setPort .supervisor { resetPort 6 with
        waiting := some { seq := 1, ask := .request (.readLight 0) } }).port .supervisor).inProgress = none := by decide

theorem witness_PortAndNoticeRequests_ports :
    PortFree State.reset .line ∧ 20 + 10 + 2 ≤ 32 ∧ (State.reset.port .supervisor).allocation = 6 ∧
      (State.reset.port .supervisor).stalled = false ∧ 32 < 20 + 10 + 3 ∧
      (((State.reset.setPort .supervisor { resetPort 6 with stalled := true }).port .supervisor).stalled = true) ∧
      ((State.reset.queue.filter fun e => e.origin = Port.supervisor).length ≤ 2) ∧
      (3, Port.supervisor) ∈ [(1, Port.line), (2, .accounting), (3, .supervisor)] ∧ 3 < 4 ∧
      (5000, some 5000) ∈ [(0, none), (5, some 5), (50, some 50), (500, some 500), (5000, some 5000)] ∧
      4 ∉ [0, 5, 50, 500, 5000] :=
  ⟨free_reset _, by decide⟩

/-- An APPLIED entry with a full void count, queued under tree 0. -/
def appliedEntry : NoticeEntry :=
  { kind := .applied, tree := some 0, severity := .info, count := 65535, firstSeen := 1,
    detail := .applied (.fence 0 3) 1 false 65535 }

theorem witness_NoticeCoalesces :
    let s := State.reset.setPort .supervisor { resetPort 6 with notices := [appliedEntry], line := true }
    (s.port .supervisor).notices = [] ++ appliedEntry :: [] ∧
      appliedEntry.kind = (Detail.applied (.fence 0 3) 2 false 1).kind ∧ appliedEntry.tree = some 0 ∧
      (State.reset.port .line).notices = [] ∧
      ∀ c r ok n, Detail.treeReady 0 5 ≠ .applied c r ok n :=
  ⟨rfl, rfl, rfl, rfl, nofun⟩

theorem witness_PortAndNoticeRequests_notices :
    PortFree State.reset .line ∧ 1 ≤ 8 ∧ 8 < 9 ∧ (2, Severity.alarm) ∈ [(0, Severity.info), (1, .warn), (2, .alarm)] ∧
      2 < 3 ∧ routableOf 17 = some .overrunFence ∧ (NoticeKind.overrunFence, Port.supervisor) ∈ State.reset.routes ∧
      17 < 18 :=
  ⟨free_reset _, by decide⟩

theorem witness_StartTreeEffect :
    PortFree State.reset .line ∧ (State.reset.tree 3).phase = .down ∧
      ((part (inState .faulted []) []).tree 0).phase = .faulted ∧
      ((part (inState .settling []) []).tree 0).phase = .settling ∧
      ((part (inState .running []) []).tree 0).phase = .running ∧ PortFree (part (inState .running []) []) .line :=
  ⟨free_reset _, rfl, rfl, rfl, rfl, free_part _ _ _⟩

theorem witness_StopTreeEffect_blocks :
    PortFree (part (inState .settling []) []) .line ∧ ((part (inState .settling []) []).tree 0).phase ≠ .down ∧
      (State.reset.tree 3).phase = .down ∧ (part (inState .settling []) []).heldPacket = none :=
  ⟨free_part _ _ _, by decide, rfl, rfl⟩

theorem witness_StopTreeEffect_roster :
    let s := running (.silent { e := 5, hushed := false })
    PortFree s .line ∧ StoresCanonical s ∧ (s.tree 0).phase ≠ .down ∧ tagOk 3 = true ∧
      s.entry 0 3 = some (home 7 (.silent { e := 5, hushed := false })) :=
  ⟨free_part _ _ _, canonical_running _, by decide, rfl, rfl⟩

theorem witness_SetTreeEffect_atOnce :
    let s := part resetTree [(2, home 7 (.silent { e := 80000, hushed := false }))]
    PortFree s .line ∧ (s.tree 0).phase = .down ∧ (s.tree 0).settings.nearBound ≤ 0 ∧ 131071 ≤ 131071 ∧
      80000 ≤ (s.tree 0).settings.target ∧ (s.tree 0).settings.target ≤ 131071 ∧ 2 ≤ 8 ∧
      s.entry 0 3 = some (home 7 (.silent { e := 80000, hushed := false })) ∧
      ((part (inState .running []) []).tree 0).phase ≠ .down ∧ 131071 < 131072 ∧
      (s.tree 0).settings.target < 80001 ∧ 8 < 9 :=
  ⟨free_part _ _ _, by decide⟩

theorem witness_SetTreeEffect_staged :
    PortFree (part resetTree []) .line ∧ QueueOpen (part resetTree []) .line ∧
      ¬ QueueOpen (State.reset.setPort .line { resetPort 16 with stalled := true }) .line ∧
      (11, SettingName.defaultPeak, 1, 1875) ∈ [(4, SettingName.minBurst, 1, 64), (6, .kCall, 1, 1024), (8, .kDark, 1, 256),
        (9, .poll, 1, 64), (10, .silence, 1, 16), (11, .defaultPeak, 1, 1875)] ∧ 16 ≤ 1600 ∧ 4 ≤ 64 ∧
      (5, 16, 1600) ∈ [(4, 1, 64), (5, 16, 1600), (6, 1, 1024), (7, 4, 64), (8, 1, 256), (9, 1, 64), (10, 1, 16),
        (11, 1, 1875)] ∧ 15 < 16 ∧ 11 < 12 :=
  ⟨free_part _ _ _, open_part, fun h => absurd h.1 (by decide), by decide⟩

theorem witness_ReadTreeAndMetersAnswer :
    PortFree State.reset .line ∧ PortFree State.reset .accounting ∧ 1 ≤ 128 ∧ 128 < 129 ∧ 4 ≤ 4 ∧
      State.reset.entry 0 128 = none ∧
      (running (.active someActive)).entry 0 3 = some (home 7 (.active someActive)) :=
  ⟨free_reset _, free_reset _, by decide⟩

theorem witness_ReadRosterAnswer : PortFree State.reset .line ∧ 121 + 8 ≤ 129 ∧ 129 < 122 + 8 ∧ 8 < 9 ∧ 4 ≤ 4 :=
  ⟨free_reset _, by decide⟩

theorem witness_ReadLightAnswer : PortFree State.reset .supervisor ∧ 4 ≤ 4 := ⟨free_reset _, by decide⟩

theorem witness_BaselineJudged :
    let s := part (inState .settling [settling10 16]) []
    (s.tree 0).phase = .settling ∧ (s.tree 0).record s.round = some (settling10 16) ∧ (settling10 16).dark = some 16 ∧
      (s.tree 0).checker.muted = false ∧ (s.tree 0).checker.darkTaken = false ∧ (s.tree 0).checker.carried = none ∧
      (settling10 16).settlingNo = 16 ∧ (settling10 15).settlingNo < 16 ∧ 1 ≤ (settling10 15).settlingNo ∧
      max (s.tree 0).light.baseline (levelOver 0 (32 * 16) [{ time := 0, reading := 2048 }]) ≤ 2048 ∧
      2048 < max (s.tree 0).light.baseline (levelOver 0 (32 * 16) [{ time := 511, reading := 2049 }]) ∧
      s.heldPacket = none := by decide

theorem witness_BaselineJudged_waiting :
    let full := (128 : Nat) * 2048
    let o : OfferedPacket := { tree := 1, packet := { tag := 3, payload := [9] } }
    let x := { inState .running [] with
      framer := { buffer := List.replicate 128 { tag := 3, payload := List.replicate 2048 0 }, frame := none } }
    let s := { part (inState .settling [settling10 16]) [] with heldPacket := some o }
    let s' := s.setTree 1 x
    s'.heldPacket = some o ∧ o.tree ≠ 0 ∧ (s'.tree o.tree).phase = .running ∧
      262144 < (List.replicate 128 2048).sum + o.packet.payload.length ∧ full = 262144 :=
  ⟨rfl, by decide, rfl, by decide, rfl⟩

/-- Tree 0 RUNNING under plan10 with a suspicion state and an observation list. -/
def suspecting (x : Suspicion) (list : List Bool) : State :=
  part { inState .running [plan10] with light := { resetLight with suspicion := x, observations := list } } []

theorem witness_DarkWindowJudged :
    let s := suspecting .clear []
    (s.tree 0).phase = .running ∧ (s.tree 0).record s.round = some plan10 ∧ plan10.dark = some 16 ∧
      (s.tree 0).checker.muted = false ∧ (s.tree 0).checker.darkTaken = false ∧
      (s.tree 0).light.suspicion = .clear ∧ 1 < (s.tree 0).light.m ∧ ({ resetLight with m := 1 } : Light).m ≤ 1 ∧
      darkLevel 16 (s.tree 0).guardAtZero [{ time := 9, reading := 128 }] ≤ 128 ∧
      128 < darkLevel 16 (s.tree 0).guardAtZero [{ time := 9, reading := 129 }] ∧
      ((suspecting .watch [true]).tree 0).light.suspicion = .watch ∧ ([true] ++ [true]).count true < 3 ∧
      3 ≤ ([true, true] ++ [true]).count true ∧
      (List.replicate 7 false ++ [true]).count true < 3 ∧ (List.replicate 7 false ++ [true]).length = 8 ∧
      ((suspecting .unresolved []).tree 0).light.suspicion = .unresolved := by decide

theorem witness_AdmissionRequests_list :
    PortFree State.reset .line ∧ Store.read 7 State.reset.admissions = none ∧ State.reset.admissions.length < 256 ∧
      Store.read 7 [(7, ({ serial := 7, tree := none, contract := { c := 0, p := 1, w := 1 } } : Admission))] =
        some { serial := 7, tree := none, contract := { c := 0, p := 1, w := 1 } } ∧
      256 ≤ (List.replicate 256 0).length ∧ 1875 ≤ 1875 ∧ 255 < 256 ∧ 4 ≠ 255 :=
  ⟨free_reset _, by decide⟩

theorem witness_AdmissionRequests_mode : PortFree State.reset .line ∧ 2 ≤ 2 ∧ (3 : TreeId).val = 3 ∧ 4 ≤ 4 :=
  ⟨free_reset _, by decide⟩

/-- The window record of round 10: a call window of 400 quanta from quantum 16. -/
def window10 (kind : RecordKind) : WindowRecord := { round := 10, kind := kind, opening := 16, width := 400 }

/-- The part in round 10 with that window on tree 0, and tag 3 in a state. -/
def listening (kind : RecordKind) (body : Body) : State :=
  part { inState .running [] with engine := { resetEngine with windows := [window10 kind] } } [(2, home 7 body)]

/-- An announcement of serial 7 that fills the window to its last byte-time. -/
def announcement : Burst :=
  { start := 512, stop := 13312, checkOk := true, bytes := [0, 2, 0, 0, 0, 5, 0, 0, 0, 0, 0, 0, 0, 7, 0, 0] }

theorem witness_AnnouncementJudged :
    let s := listening .call (.silent { e := 5, hushed := false })
    RosterSound s ∧ (s.tree 0).engine.windows = [window10 .call] ∧ (window10 .call).round = s.round ∧
      32 * ((window10 .call).opening : Int) ≤ announcement.start ∧ announcement.start < announcement.stop ∧
      announcement.stop ≤ 32 * (((window10 .call).opening : Int) + (window10 .call).width) ∧ announcement.type = 2 ∧
      (s.tree 0).engine.collisions ≤ 4294967295 ∧ announcement.serial = 7 ∧
      s.entry 0 3 = some (home 7 (.silent { e := 5, hushed := false })) ∧
      Store.read announcement.serial.toNat s.admissions = none ∧ s.openMode = false ∧ tagOk 1 = true ∧
      s.entry 0 1 = none ∧ (home 8 (.silent { e := 5, hushed := false })).serial ≠ announcement.serial ∧
      (home 7 (.leaving none)).state ≠ .silent :=
  ⟨⟨⟨by simp [listening, part, Store.Wf], List.Pairwise.nil, List.Pairwise.nil, List.Pairwise.nil,
     by simp [listening, part], by simp [listening, part, State.reset]⟩, by simp [SerialsUnique, listening, part]⟩,
   by decide⟩

/-- Two stretches of a window: two bursts that overlap, and a burst that follows them. -/
def twoStretches (b : Burst) : List (List Burst) :=
  [[{ b with start := 600, stop := 800 }, { b with start := 700, stop := 900 }], [{ b with start := 900, stop := 1000 }]]

theorem in_stretches (b : Burst) : InStretches (twoStretches b) := by
  refine ⟨by simp [twoStretches], ?_, by simp [twoStretches]⟩
  simp only [twoStretches, List.mem_cons, List.not_mem_nil, or_false]
  rintro x (rfl | rfl) front back c h hf
  · match front, h, hf with
    | [_], h, _ => obtain ⟨rfl, rfl, -⟩ := by simpa using h
                   exact ⟨_, List.mem_singleton_self _, by simp⟩
    | _ :: _ :: _, h, _ => simp at h
  · match front, h, hf with
    | _ :: _, h, _ => simp at h

/-- The part in round 10 with a window of that round on tree 0 and a call window of round 12, and tag 3 in a state. -/
def listeningTwice (kind : RecordKind) (body : Body) : State :=
  part { inState .running [] with
      engine := { resetEngine with windows := [window10 kind, { window10 .call with round := 12 }] } } [(2, home 7 body)]

theorem witness_AnnouncementJudged_window :
    let s := listeningTwice .call (.silent { e := 5, hushed := false })
    (∀ w ∈ (State.reset.tree 0).engine.windows, ¬ (w.round = State.reset.round ∧ w.kind = .call)) ∧
      window10 .call ∈ (s.tree 0).engine.windows ∧ (window10 .call).round = s.round ∧ (window10 .call).kind = .call ∧
      (∀ x ∈ (s.tree 0).engine.windows, x.round = s.round → x = window10 .call) ∧
      InStretches (twoStretches announcement) ∧ (twoStretches announcement).flatten.length = 3 ∧
      announcement.checkOk = true ∧ announcement.type = 2 :=
  ⟨by decide, by decide, rfl, rfl, by decide, in_stretches _, rfl, rfl, rfl⟩

/-- An echo of serial 7 at lag 4,000. -/
def echo : Burst :=
  { start := 4512, stop := 4608, checkOk := true, bytes := [3, 3, 0, 0, 0, 0, 0, 0, 0, 0, 0, 0, 0, 7, 0, 0] }

theorem witness_ProbeJudged :
    let f : Heard := { heardRound := 4, tries := 2, keptDelay := none }
    let w := window10 (.probe 3 7 5)
    let s := listeningTwice (.probe 3 7 5) (.heard f)
    StoresCanonical s ∧ (∀ w ∈ (State.reset.tree 0).engine.windows, w.round = State.reset.round → w.kind = .call) ∧
      w ∈ (s.tree 0).engine.windows ∧ w.round = s.round ∧ w.kind = .probe 3 7 5 ∧
      (∀ x ∈ (s.tree 0).engine.windows, x.round = s.round → x = w) ∧ InStretches (twoStretches echo) ∧
      s.entry 0 3 = some (home 7 (.heard f)) ∧ (home 7 (.heard f)).occupied = 5 ∧
      (home 7 (.heard f)).owed.drop = false ∧ (home 7 (.active someActive)).state ≠ .heard ∧
      echo.start = 32 * (w.opening : Int) + (4000 : Nat) ∧ echo.start < echo.stop ∧
      echo.stop ≤ 32 * ((w.opening : Int) + w.width) ∧ echo.checkOk = true ∧
      echo.type = 3 ∧ echo.serial = 7 ∧ (s.tree 0).settings.nearBound + 4000 ≤ (s.tree 0).settings.target ∧
      3999 < (s.tree 0).settings.nearBound + 4000 ∧ 2 ≤ f.tries ∧ (1 : Nat) < 2 :=
  ⟨⟨by simp [listeningTwice, part, Store.Wf], List.Pairwise.nil, List.Pairwise.nil, List.Pairwise.nil,
    by simp [listeningTwice, part], by simp [listeningTwice, part, State.reset]⟩, by decide, by decide, rfl, rfl, by decide,
   in_stretches _, by decide⟩

theorem witness_OrdersOwedAndSent_owed :
    Owed.none.drop = false ∧ ({ Owed.none with drop := true } : Owed).drop = true ∧
      (OrderKind.hush, OrderKind.fence) ∉
        [(OrderKind.hush, OrderKind.wake), (.wake, .hush), (.fence, .release), (.release, .fence)] := by decide

theorem witness_OrdersOwedAndSent_sent :
    tagOk 3 = true ∧ (running (.leaving (some 5))).entry 0 3 = some (home 7 (.leaving (some 5))) ∧
      (home 7 (.leaving (some 5))).state = .leaving ∧ StoresCanonical (running (.leaving (some 5))) ∧
      (running (.active someActive)).entry 0 3 = some (home 7 (.active someActive)) ∧
      (home 7 (.active someActive)).state ≠ .leaving :=
  ⟨rfl, rfl, rfl, canonical_running _, rfl, by decide⟩

theorem witness_OrdersOwedAndSent_lists :
    let woken := { home 8 (.active { someActive with hushed := true }) with owed := { Owed.none with wake := true } }
    let s := part resetTree [(2, home 7 (.active someActive)), (3, woken)]
    (∀ tag ∈ [3, 4, 128], tagOk tag = true) ∧ (0 : TreeId) = 0 ∧ 4 ∈ [3, 4, 128] ∧ s.entry 0 4 = some woken ∧
      woken.hushed = true ∧ s.entry 0 3 = some (home 7 (.active someActive)) ∧ s.entry 0 128 = none ∧ 1 ∉ [3, 4, 128] := by
  decide

/-- The part before a frame: tree 0 holds the plans of rounds 10, 11 and 12; a HEARD home owes the PROBE booked for the frame of
round 11, and a TIMED one owes ASSIGN. -/
def framing (booked : Option (Round × Nat)) : State :=
  let x := inState .running
    [plan10, { plan10 with round := 11, marks := [(3, .inService)] }, { plan10 with round := 12 }]
  part { x with
      engine := { resetEngine with bookedProbe := booked }
      framer := { buffer := [{ tag := 3, payload := [1] }], frame := none } }
    [(2, (home 7 (.heard { heardRound := 9, tries := 0, keptDelay := none })).owe .probe),
     (3, (home 8 (.timed { e := 5, former := none, misses := 0, hushed := false })).owe .assign)]

theorem tags_framing : TagsInRange (framing (some (11, 3))) := fun t => match t with
  | 0 => ⟨by decide, nofun, nofun, nofun, fun b h => by cases h; rfl⟩
  | 1 => ⟨nofun, nofun, nofun, nofun, nofun⟩
  | 2 => ⟨nofun, nofun, nofun, nofun, nofun⟩
  | 3 => ⟨nofun, nofun, nofun, nofun, nofun⟩

theorem witness_OrderPlacesFilled :
    let s := framing (some (11, 3))
    let a := (home 8 (.timed { e := 5, former := none, misses := 0, hushed := false })).owe .assign
    RosterSound s ∧ TagsInRange s ∧ (∃ r ∈ (s.tree 0).plans, r.round = s.round + 2) ∧
      (∀ r ∈ (s.tree 1).plans, r.round ≠ s.round + 2) ∧
      (s.tree 0).engine.bookedProbe = some (s.round + 1, 3) ∧ ((s.entry 0 3).map fun e => e.owed.probe) = some true ∧
      (((framing none).tree 0).engine.bookedProbe = none) ∧ (4, a) ∈ (framing none).treeEntries 0 ∧
      a.owed.assign = true ∧ ∀ x ∈ (framing none).treeEntries 0, x.1 < 4 → ¬ (x.2.state = .timed ∧ x.2.owed.assign = true) :=
  ⟨sound_part _ _ _ (by decide), tags_framing, by decide⟩

theorem witness_FramePacked :
    let s := framing (some (11, 3))
    BuffersWithin s ∧ RosterSound s ∧ MetersInRange s ∧ TagsInRange s ∧ s.heldPacket = none ∧
      (∃ r ∈ (s.tree 0).plans, r.round = s.round + 2) ∧ ∀ r ∈ (s.tree 1).plans, r.round ≠ s.round + 2 :=
  ⟨⟨by decide, fun t => match t with
    | 0 => ⟨by decide, by decide⟩
    | 1 => ⟨by decide, by decide⟩
    | 2 => ⟨by decide, by decide⟩
    | 3 => ⟨by decide, by decide⟩, by decide⟩, sound_part _ _ _ (by decide), ⟨by decide, by decide⟩, tags_framing,
   by decide⟩

/-- A hunt in TRIAL of tag 3. -/
def trialHunt : Hunt :=
  { phase := .trial 3, suspects := [3], effective := none, darkRun := 0, steps := 0, started := 9 }

/-- The part before a frame, in a hunt. -/
def huntingFrame : State := (framing none).setTree 0
  { (framing none).tree 0 with light := { resetLight with suspicion := .hunt trialHunt } }

/-- The quiet condition holds in the frame of round 11, so that the step is effective in round 12 (R132). -/
theorem witness_QuietConditionTested :
    (huntingFrame.tree 0).light.suspicion = .hunt trialHunt ∧ trialHunt.effective = none ∧
      (∃ r ∈ (huntingFrame.tree 0).plans, r.round = huntingFrame.round + 2) ∧
      (after .roundStart huntingFrame).map (fun t => (t.tree 0).light.suspicion) =
        some (.hunt { trialHunt with effective := some 12 }) := by decide

theorem witness_RoundCountsAttributed :
    let s := { framing none with meters := [(2, zeroMeters 5 true)] }
    tagOk 3 = true ∧ s.meterOf 0 3 = some (zeroMeters 5 true) ∧ s.meterOf 0 4 = none ∧
      (s.tree 0).plans.find? (fun r => r.round = s.round + 1) =
        some { plan10 with round := 11, marks := [(3, .inService)] } ∧
      (s.entry 0 3).isSome = true ∧ ∀ r ∈ (s.tree 1).plans, r.round ≠ s.round + 1 := by decide

theorem witness_RoundCountsAttributed_saturates :
    let m := { zeroMeters 5 true with inService := 4294967295 }
    let s := { framing none with meters := [(2, m)] }
    s.meterOf 0 3 = some m ∧ roundSaturates s 0 3 m :=
  ⟨by decide, { plan10 with round := 11, marks := [(3, .inService)] }, by decide, .inl ⟨by decide, by decide⟩⟩

/-- The plan of round 10 with its grant moved to end just before a quantum. -/
def plan10To (stop : Nat) : PlanRecord :=
  { plan10 with grants := [{ tag := 3, occupied := 5, start := stop - 12, payload := 10, length := 12, kind := .data }] }

/-- The part RUNNING under that plan, with the grant's mark. -/
def ending (stop : Nat) (marks : Store GrantMark) : State :=
  part { inState .running [plan10To stop] with checker := { resetChecker with marks := marks } }
    [(2, home 7 (.active someActive))]

theorem witness_OpenEndsCarried :
    ((ending 1875 []).tree 0).record 10 = some (plan10To 1875) ∧ (plan10To 1875).grants = [] ++ (plan10To 1875).grants ∧
      ((plan10To 1875).grants.map fun g => g.start + g.length) = [1875] ∧
      ((plan10To 1874).grants.map fun g => g.start + g.length) = [1874] ∧
      Store.read 3 ((ending 1874 [(3, .heard true 5 false true)]).tree 0).checker.marks = some (.heard true 5 false true) ∧
      idleStart plan10 false + 8 ≤ 1875 ∧ 1875 < idleStart (plan10To 1867) false + 8 ∧
      (State.reset.tree 0).record 10 = none ∧
      (after .roundStart (ending 1874 [(3, .heard true 5 false true)])).map (fun t => t.grantsOf 0 10) =
        some (plan10To 1874).grants := by decide

theorem witness_PacketsHandled :
    let s := running (.active someActive)
    let held : OfferedPacket := { tree := 0, packet := { tag := 128, payload := [1] } }
    s.heldPacket = none ∧ (s.tree 0).phase = .running ∧ tagOk 128 = true ∧
      0 + (List.replicate 2048 (0 : Byte)).length ≤ 262144 ∧ ({ s with heldPacket := some held } : State).heldPacket ≠ none ∧
      (State.reset.tree 1).phase = .down ∧ ({ s with upBuffer := [{ tree := 0, tag := 1, payload := [] }] } : State).upBuffer =
        { tree := 0, tag := 1, payload := [] } :: [] ∧
      262144 < ((List.replicate 128 2048).sum) + 1 := by decide

theorem witness_ActiveBurstAccepted :
    let s := running (.active someActive)
    let g : Grant := { tag := 3, occupied := 5, start := 16, payload := 10, length := 12, kind := .data }
    RosterSound s ∧ (s.tree 0).checker.muted = false ∧ (s.tree 0).record s.round = some plan10 ∧
      plan10.grants.find? (fun x => x.accepts burst3.start) = some g ∧
      plan10.grants.find? (fun x => x.accepts (burst3.start + 24)) = some g ∧
      undecided (Store.read 3 (s.tree 0).checker.marks) = true ∧ undecided (some .burning) = true ∧
      s.entry 0 3 = some (home 7 (.active someActive)) ∧
      (home 7 (.active someActive)).occupied = g.occupied ∧ burst3.checkOk = true ∧ burst3.tag = 3 ∧ burst3.type = 1 ∧
      burst3.packets = some [[9, 9]] ∧ burst3.stop ≤ 32 * ((g.start : Int) + g.length) + 24 ∧ s.watches = [] ∧ (s.upBuffer.map fun p => p.payload.length).sum + 2 ≤ 262144 :=
  ⟨sound_running _, by decide⟩

/-- The plan of round 10 with a greeting of tag 3. -/
def greeting10 : PlanRecord :=
  { plan10 with grants := [{ tag := 3, occupied := 5, start := 16, payload := 1, length := 3, kind := .greeting }] }

/-- A TIMED body. -/
def someTimed : Timed := { e := 70000, former := none, misses := 0, hushed := false }

theorem witness_GreetingMakesActive :
    let s := part (inState .running [greeting10]) [(2, home 7 (.timed someTimed))]
    let b : Burst := { burst3 with stop := 608, bytes := [3, 1, 0, 0, 1, 64, 0, 0, 0, 0, 0, 0, 0, 7, 0, 0] }
    let g : Grant := { tag := 3, occupied := 5, start := 16, payload := 1, length := 3, kind := .greeting }
    RosterSound s ∧ (s.tree 0).record s.round = some greeting10 ∧
      greeting10.grants.find? (fun x => x.accepts b.start) = some g ∧
      undecided (Store.read 3 (s.tree 0).checker.marks) = true ∧
      s.entry 0 3 = some (home 7 (.timed someTimed)) ∧ b.packets = some [] ∧
      (b.start - 32 * ((g.start : Int) + 1)).natAbs ≤ 4 ∧ b.stop ≤ 32 * ((g.start : Int) + g.length) + 24 ∧ s.watches = [] ∧ s.meterOf 0 3 = none ∧ MetersInRange s :=
  ⟨⟨⟨by simp [part, Store.Wf], List.Pairwise.nil, List.Pairwise.nil, List.Pairwise.nil, by simp [part],
     by simp [part, State.reset]⟩, by simp [SerialsUnique, part]⟩, by decide, by decide, by decide, by decide, by decide,
   by decide, by decide, by decide, by decide, by simp [MetersInRange, part, State.reset]⟩

/-- A FENCED body. -/
def someFenced : Fenced :=
  { e := 70000, need := 0, credit := 0, lastGranted := none, history := [], hushed := false, trial := false }

/-- The last grant of round 9, which ended with quantum 1,874. -/
def lastGrant : Grant := { tag := 3, occupied := 5, start := 1863, payload := 10, length := 12, kind := .data }

/-- The part in round 10 with that grant carried over. -/
def carrying (mark : Option GrantMark) (body : Body) : State :=
  part { inState .running [plan10] with
      checker := { resetChecker with carried := some { round := 9, grant := lastGrant, mark := mark } } }
    [(2, home 7 body)]

theorem witness_BurstsByState :
    let g : Grant := { tag := 3, occupied := 5, start := 16, payload := 10, length := 12, kind := .data }
    StoresCanonical (running (.fenced someFenced)) ∧
      ((running (.fenced someFenced)).grantsOf 0 10).find? (fun x => x.accepts burst3.start) = some g ∧
      ((carrying none (.fenced someFenced)).grantsOf 0 9).find? (fun x => x.accepts 59648) = some lastGrant ∧
      undecided ((running (.fenced someFenced)).markOf 0 10 3) = true ∧ burst3.packets = some [[9, 9]] ∧
      burst3.stop ≤ 32 * ((g.start : Int) + g.length) + 24 ∧
      (running (.fenced someFenced)).entry 0 3 = some (home 7 (.fenced someFenced)) ∧
      (running (.active someActive)).entry 0 3 = some (home 7 (.active someActive)) ∧
      (running (.silent { e := 5, hushed := false })).entry 0 3 = some (home 7 (.silent { e := 5, hushed := false })) ∧
      (part (inState .running [greeting10]) [(2, home 7 (.timed someTimed))]).entry 0 3 =
        some (home 7 (.timed someTimed)) ∧
      (home 7 (.leaving none)).state = .leaving ∧ (running (.active someActive)).entry 0 4 = none ∧
      (burst3.start - 32 * ((g.start : Int) + 1)).natAbs ≤ 4 ∧ 4 < (5 : Int).natAbs ∧ (70000 : Int) - 24 ≤ 80000 ∧
      (80000 : Int) < 80000 - -5 ∧ (4 : Int) - 5 < 0 :=
  ⟨canonical_running _, by decide⟩

theorem witness_GrantsUnheard :
    let s := running (.active { someActive with missCount := 3 })
    let g : Grant := { tag := 3, occupied := 5, start := 16, payload := 10, length := 12, kind := .data }
    StoresCanonical s ∧ (s.tree 0).phase = .running ∧ (s.tree 0).checker.muted = false ∧ tagOk g.tag = true ∧
      s.entry 0 3 = some (home 7 (.active { someActive with missCount := 3 })) ∧
      (s.grantsOf 0 10).find? (fun x => x.tag = 3) = some g ∧ (s.grantsOf 0 10).find? (fun x => x.accepts 520) = some g ∧
      s.markOf 0 10 3 = none ∧ (carrying (some .burning) (.active someActive)).markOf 0 9 3 = some .burning ∧
      (carrying (some .foreign) (.active someActive)).markOf 0 9 3 = some .foreign ∧
      (2 : Nat) + 1 < (s.tree 0).settings.silence ∧ (s.tree 0).settings.silence ≤ min 16 (3 + 1) ∧
      ([{ start := 568, stop := 600 }] : List LightSpan).any (fun l => g.accepts l.start) = true ∧
      ([{ start := 569, stop := 600 }] : List LightSpan).any (fun l => g.accepts l.start) = false ∧
      ([{ start := 569, stop := 600 }] : List LightSpan).any (looseLight (s.grantsOf 0 10) g) = true ∧
      burst3.stop ≤ 32 * ((g.start : Int) + g.length) + 24 ∧
      32 * ((g.start : Int) + g.length) + 24 < ({ burst3 with stop := 921 } : Burst).stop ∧
      burst3.tag = 3 ∧ ({ burst3 with bytes := [4, 1, 0, 0, 1, 64, 0, 0, 0, 0, 0, 0, 0, 7, 0, 0] } : Burst).tag ≠ 3 ∧
      ({ burst3 with bytes := [3, 1, 0, 0, 1, 64, 0, 0, 0, 0, 0, 0, 0, 7, 0, 4, 0, 3, 9, 9] } : Burst).packets = none :=
  ⟨canonical_running _, by decide⟩

/-- The part after the burst of tag 3 is judged, with a history of that home. -/
def guarding (history : List Bool) : State :=
  part { inState .running [plan10] with
    checker := { resetChecker with marks := [(3, .heard true 864 false true)] } }
    [(2, home 7 (.active { someActive with history := history }))]

theorem witness_GuardJudged :
    let s := guarding [true, true]
    let g : Grant := { tag := 3, occupied := 5, start := 16, payload := 10, length := 12, kind := .data }
    StoresCanonical s ∧ (s.tree 0).phase = .running ∧ (s.tree 0).record s.round = some plan10 ∧
      plan10.grants.find? (fun x => x.tag = 3) = some g ∧ g.start + g.length < 1875 ∧
      Store.read 3 (s.tree 0).checker.marks = some (.heard true 864 false true) ∧
      s.entry 0 3 = some (home 7 (.active { someActive with history := [true, true] })) ∧
      128 < guardLevel g 864 (s.nextBegin 0 s.round g []) [{ time := 896, reading := 129 }] ∧
      guardLevel g 864 (s.nextBegin 0 s.round g []) [{ time := 896, reading := 128 }] ≤ 128 ∧
      (s.tree 0).light.mOver ≤ ([true, true] ++ [true]).count true ∧ [true, true].length ≤ 8 :=
  ⟨⟨by simp [guarding, part, Store.Wf], List.Pairwise.nil, List.Pairwise.nil, List.Pairwise.nil,
    by simp [guarding, part], by simp [guarding, part, State.reset]⟩, by decide⟩

/-- A guard in quantum 0 of the round after its burst. -/
theorem witness_GuardJudged_carried :
    let s := carrying (some (.heard true 60000 false true)) (.fenced someFenced)
    StoresCanonical s ∧ (s.tree 0).phase = .running ∧ (s.tree 0).checker.muted = false ∧ (9 : Round) ≠ s.round ∧
      s.round = 9 + 1 ∧ (s.tree 0).record s.round = some plan10 ∧ plan10.window = none ∧
      (s.tree 0).checker.carried =
        some { round := 9, grant := lastGrant, mark := some (.heard true 60000 false true) } ∧
      s.entry 0 3 = some (home 7 (.fenced someFenced)) ∧ someFenced.history.length ≤ 8 ∧
      128 < guardLevel lastGrant 60000 (s.nextBegin 0 9 lastGrant []) [{ time := 60031, reading := 129 }] :=
  ⟨⟨by simp [carrying, part, Store.Wf], List.Pairwise.nil, List.Pairwise.nil, List.Pairwise.nil,
    by simp [carrying, part], by simp [carrying, part, State.reset]⟩, by decide⟩

/-- A stretch of the round before whose end is taken after the round began. -/
theorem witness_IdleStretchJudged_carried :
    let x := { (suspecting .clear []).tree 0 with
      checker := { resetChecker with carriedIdle := some { round := 9, first := 1867 } } }
    x.phase = .running ∧ x.checker.muted = false ∧ x.checker.carriedIdle = some { round := 9, first := 1867 } ∧
      ({ resetLight with m := 1 } : Light).m ≤ 1 ∧ 128 < levelOver (32 * 1867) 60000 [{ time := 59999, reading := 129 }] := by
  decide

theorem witness_IdleStretchJudged :
    let s := suspecting .watch [true]
    (s.tree 0).phase = .running ∧ (s.tree 0).checker.muted = false ∧ (s.tree 0).checker.idleTaken = false ∧
      (s.tree 0).record s.round = some plan10 ∧ idleStart plan10 (s.tree 0).guardAtZero = 29 ∧ 29 + 8 ≤ 1875 ∧
      levelOver (32 * 29) 60000 [{ time := 928, reading := 128 }] ≤ 128 ∧
      128 < levelOver (32 * 29) 60000 [{ time := 59999, reading := 129 }] ∧
      ((suspecting .clear []).tree 0).light.suspicion = .clear := by decide

theorem witness_LightRequests_settings :
    PortFree State.reset .supervisor ∧ 255 ≤ 255 ∧ 64 ∈ [1, 4, 16, 64] ∧ 255 < 256 ∧ 5 ∉ [1, 4, 16, 64] ∧ 8 ≤ 8 ∧
      4 ≤ 4 ∧ 8 < 9 :=
  ⟨free_reset _, by decide⟩

/-- Tree 0 RUNNING with ACTIVE homes at tags 3 and 4. -/
def twoHomes : State := part (inState .running []) [(2, home 7 (.active someActive)), (3, home 8 (.active someActive))]

theorem witness_HuntBegins :
    PortFree twoHomes .supervisor ∧ (twoHomes.tree 0).phase = .running ∧
      (∀ h : Hunt, (twoHomes.tree 0).light.suspicion ≠ .hunt h) ∧
      2 ≤ ((twoHomes.treeEntries 0).filterMap fun x => if x.2.state = .active then some x.1 else none).length ∧
      ((running (.active someActive)).treeEntries 0).filterMap
        (fun x => if x.2.state = .active then some x.1 else none) = [3] ∧ tagOk 3 = true ∧
      ((part (inState .running []) []).treeEntries 0 = []) ∧ ((suspecting (.hunt trialHunt) []).tree 0).light.suspicion =
        .hunt trialHunt ∧ (State.reset.tree 0).phase ≠ .running :=
  ⟨free_part _ _ _, rfl, nofun, by decide, rfl, rfl, rfl, rfl, by decide⟩

/-- Members of the group that are already hushed: one that owes WAKE owes HUSH instead, one that owes nothing keeps so (R132). -/
theorem test_group_already_hushed :
    let s := part (inState .running [])
      [(2, (home 7 (.active { someActive with hushed := true })).owe .wake),
       (3, home 8 (.active { someActive with hushed := true }))]
    ((s.formStep 0 trialHunt [3, 4]).entry 0 3 = some ((home 7 (.active { someActive with hushed := true })).owe .hush)) ∧
      (s.formStep 0 trialHunt [3, 4, 5]).entry 0 4 = some (home 8 (.active { someActive with hushed := true })) := by decide

/-- A hunt effective in round 10 with a dark run of 1, in a phase. -/
def effectiveHunt (p : HuntPhase) : Hunt := { trialHunt with phase := p, effective := some 10, darkRun := 1 }

theorem witness_HuntObserved :
    let f := { someFenced with trial := true }
    let s := running (.fenced f)
    let x := (suspecting (.hunt (effectiveHunt (.trial 3))) []).tree 0
    x.phase = .running ∧ x.record 10 = some plan10 ∧ plan10.dark = some 16 ∧ x.checker.muted = false ∧
      x.checker.darkTaken = false ∧ x.light.suspicion = .hunt (effectiveHunt (.trial 3)) ∧ trialHunt.effective = none ∧
      laterThan 11 10 = true ∧ laterThan 10 10 = false ∧
      darkLevel 16 x.guardAtZero [{ time := 9, reading := 128 }] ≤ 128 ∧
      128 < darkLevel 16 x.guardAtZero [{ time := 9, reading := 129 }] ∧ x.light.v ≤ 1 + 1 ∧ ¬ x.light.v ≤ 0 + 1 ∧
      (effectiveHunt (.search [3])).phase = .search [3] ∧ (effectiveHunt (.allQuiet 3 [])).phase = .allQuiet 3 [] ∧
      StoresCanonical s ∧ tagOk 3 = true ∧ s.entry 0 3 = some (home 7 (.fenced f)) ∧ f.trial = true :=
  ⟨rfl, by decide, rfl, rfl, rfl, rfl, rfl, by decide, by decide, by decide, by decide, by decide, by decide, rfl, rfl,
   canonical_running _, rfl, rfl, rfl⟩

/-- R139: the candidate of a trial that leaves ends the hunt UNRESOLVED. -/
theorem witness_SuspectLeavesHunt :
    let s := fun (h : Hunt) => suspecting (.hunt h) []
    (∀ h : Hunt, (twoHomes.tree 0).light.suspicion ≠ .hunt h) ∧
      ((s trialHunt).tree 0).light.suspicion = .hunt trialHunt ∧ trialHunt.phase = .trial 3 ∧
      (effectiveHunt (.search [3, 4])).phase = .search [3, 4] ∧
      (effectiveHunt (.allQuiet 3 [4])).phase = .allQuiet 3 [4] ∧
      ((s trialHunt).leaveHunt 0 3 |>.tree 0).light.suspicion = .unresolved :=
  ⟨nofun, rfl, rfl, rfl, rfl, by decide⟩

theorem witness_LightRequests_abandon :
    let s := suspecting (.hunt trialHunt) []
    let f : Fenced :=
      { e := 5, need := 0, credit := 0, lastGranted := none, history := [], hushed := false, trial := true }
    let u := { s with roster := [(2, home 7 (.fenced f))] }
    PortFree u .supervisor ∧ (u.tree 0).light.suspicion = .hunt trialHunt ∧ trialHunt.phase = .trial 3 ∧
      u.entry 0 3 = some (home 7 (.fenced f)) ∧ StoresCanonical u ∧ tagOk 3 = true ∧ s.entry 0 3 = none ∧
      (home 7 (.active someActive)).trial = false ∧
      (∃ h : Hunt, h.phase = .search [3] ∧ ((suspecting (.hunt h) []).tree 0).light.suspicion = .hunt h) ∧
      ((suspecting .clear []).tree 0).light.suspicion = .clear ∧ ((suspecting .watch []).tree 0).light.suspicion = .watch ∧
      ((suspecting .unresolved []).tree 0).light.suspicion = .unresolved :=
  ⟨(free_part (suspecting (.hunt trialHunt) []).trees.q0 [] _ :), rfl, rfl, rfl,
   ⟨by simp [Store.Wf], List.Pairwise.nil, List.Pairwise.nil, List.Pairwise.nil, by simp, by simp [suspecting, part, State.reset]⟩,
   rfl, rfl, rfl, ⟨{ trialHunt with phase := .search [3] }, rfl, rfl⟩, rfl, rfl, rfl⟩

/-- Tree 0 RUNNING with an engine, a suspicion state, and HEARD homes at tags 3 and 4. -/
def scheduling (g : Engine) (x : Suspicion) : State :=
  part { inState .running [] with engine := g, light := { resetLight with suspicion := x, cadence := 31 } }
    [(2, home 7 (.heard { heardRound := 9, tries := 0, keptDelay := none })),
     (3, home 8 (.heard { heardRound := 8, tries := 0, keptDelay := none }))]

theorem witness_EngineAndSupervisorAnswer :
    let s := scheduling { resetEngine with count := 49 } .clear
    let e := home 8 (.heard { heardRound := 8, tries := 0, keptDelay := none })
    s.cutTaken = false ∧ s.queue = [] ∧ (∀ p : Port, (s.port p).inProgress = none) ∧ (s.tree 0).phase = .running ∧
      StoresCanonical s ∧ (s.tree 0).engine.deferred = false ∧ (s.tree 0).settings.kCall ≤ (s.tree 0).engine.count + 1 ∧
      ¬ (s.tree 0).settings.kCall ≤ 48 + 1 ∧ ({ resetEngine with deferred := true } : Engine).deferred = true ∧
      (4, e) ∈ s.treeEntries 0 ∧ s.entry 0 4 = some e ∧ (s.tree 0).engine.windows = [] ∧
      laterThan 8 9 = false ∧ laterThan 9 8 = true ∧
      (s.tree 0).settings.kDark ≤ (s.tree 0).light.cadence + 1 ∧ ¬ (s.tree 0).settings.kDark ≤ 30 + 1 ∧
      ((scheduling resetEngine (.hunt trialHunt)).tree 0).light.suspicion = .hunt trialHunt :=
  ⟨rfl, rfl, fun p => by cases p <;> rfl, rfl, canonical_part _ _ _, rfl, by decide, by decide, rfl, by decide, rfl, rfl,
   by decide, by decide, by decide, by decide, rfl⟩

/-- A candidate of a c, a peak, a need and a credit, as it comes into a build. -/
def cand (tag c peak need credit : Nat) : Cand :=
  { tag := tag, occupied := 5, greeting := false, c := c, peak := peak, w := 1, need := need, credit := credit
    lastGranted := none, prior := 0, polled := false, extra := 0 }

theorem witness_StagesShareCapacity :
    let xs := [cand 3 10 100 4 0, cand 4 0 100 50 0]
    let b : BuildSetting := { overhead := 2, minBurst := 4, poll := 8, target := 12 }
    (∀ x ∈ xs, (decide (x.payload = 0)) = true) ∧ (∀ x ∈ xs, (decide (x.extra = 0)) = true) ∧
      (∀ x ∈ xs, (x.greeting || decide (0 < x.c) || decide (x.payload = 0)) = true) ∧
      (shareExcess b 1 1875 xs).2 = 4 ∧ (shareExcess b 1 0 xs).2 = 1 ∧
      (home 7 (.active someActive)).hushed = false ∧ (home 7 (.active someActive)).owed.wake = false ∧
      (home 7 (.timed someTimed)).state = .timed := by decide

theorem witness_BuiltPlanFits :
    let s := running (.active someActive)
    (s.tree 0).phase = .running ∧ (s.tree 0).settings.inRange = true ∧ StoresCanonical s ∧
      ∀ x ∈ s.roster, x.2.contract.c ≤ x.2.contract.p :=
  ⟨rfl, by decide, canonical_running _, by decide⟩

/-- A queue in which the URGENT FENCE stands behind an ORDINARY change. -/
theorem witness_CutAppliesAndBuilds_pass :
    let q := fun (c : Change) => ({ origin := .supervisor, change := c, roundTaken := 9, voided := false } : ChangeEntry)
    let s := { running (.active someActive) with queue := [q (.switchBand 1), q (.fence 0 3)] }
    s.queue = [q (.switchBand 1)] ++ q (.fence 0 3) :: [] ∧ (∃ k tag, (q (.fence 0 3)).change = .fence k tag) ∧
      (∀ x ∈ [q (.switchBand 1)], ¬ ((∃ k tag, x.change = .fence k tag) ∨ ∃ k tag, x.change = .release k tag)) ∧
      s.pass.queue = [] ∧ State.reset.queue = [] :=
  ⟨rfl, ⟨0, 3, rfl⟩, by simp, by decide, rfl⟩

theorem witness_CutAppliesAndBuilds :
    let s := running (.active someActive)
    s.cutTaken = false ∧ (∀ p : Port, (s.port p).inProgress = none) ∧ ({ s with cutTaken := true } : State).cutTaken = true ∧
      (s.tree 0).phase = .running ∧ (s.tree 1).phase = .down ∧
      ((part (inState .settling []) []).tree 0).settlingCount < 16 :=
  ⟨rfl, fun p => by cases p <;> rfl, rfl, rfl, rfl, by decide⟩

theorem witness_ChangeRequests_staged :
    let s := running (.active someActive)
    PortFree s .supervisor ∧ PortFree s .accounting ∧ PortFree s .line ∧ QueueOpen s .line ∧ QueueOpen s .supervisor ∧
      ¬ QueueOpen (s.setPort .accounting { s.port .accounting with stalled := true }) .accounting ∧
      s.entry 0 3 = some (home 7 (.active someActive)) ∧ contractOk 1455 1875 255 = true ∧
      s.bookingIfContract 0 3 (home 7 (.active someActive)) 1455 + (s.tree 0).bookedCall + (s.tree 0).bookedDark ≤ 1875 ∧
      ¬ (s.bookingIfContract 0 3 (home 7 (.active someActive)) 1875 + (s.tree 0).bookedCall +
        (s.tree 0).bookedDark ≤ 1875) ∧
      s.journal.records.length + s.journal.booked < 2048 ∧
      2048 ≤ ({ s with journal := { s.journal with booked := 2048 } } : State).journal.booked :=
  ⟨free_part _ _ _, free_part _ _ _, free_part _ _ _, ⟨rfl, by decide⟩, ⟨rfl, by decide⟩, fun h => absurd h.1 (by decide), by decide⟩

theorem witness_ChangeRequests_refused :
    let s := running (.leaving none)
    PortFree s .supervisor ∧ PortFree s .accounting ∧ PortFree s .line ∧ s.entry 0 3 = some (home 7 (.leaving none)) ∧
      s.entry 0 128 = none ∧ tagOk 128 = true ∧ contractOk 0 0 1 = false ∧ contractOk 0 1 1 = true ∧
      (home 7 (.heard { heardRound := 1, tries := 0, keptDelay := none })).state = .heard ∧ 128 < 129 :=
  ⟨free_part _ _ _, free_part _ _ _, free_part _ _ _, by decide⟩

/-- One request held: its slot, its room, its limit, and each clause at the edge of its range. -/
theorem witness_HeldRequestAtCut :
    let s := holding .supervisor heldFence none
    let stalled := fun (s : State) (p : Port) => s.setPort p { s.port p with stalled := true }
    let e := home 7 (.active someActive)
    s.cutTaken = false ∧ s.queue = [] ∧ (s.port .supervisor).inProgress = some heldFence ∧
      (∀ j : Port, j ≠ .supervisor → (s.port j).inProgress = none) ∧ heldFence.ticket < s.tickets ∧
      (s.port .supervisor).holdLimit = some 500 ∧ StoresCanonical s ∧ (s.port .supervisor).stalled = false ∧
      0 < (s.port .supervisor).allocation ∧ ((stalled s .supervisor).port .supervisor).stalled = true ∧
      s.entry 0 3 = some e ∧ s.entry 0 4 = none ∧ laterThan e.occupied heldFence.roundTaken = false ∧
      laterThan 6 heldFence.roundTaken = true ∧
      s.bookingSum 0 + 1447 + (s.tree 0).bookedDark ≤ 1875 ∧ ¬ s.bookingSum 0 + 1848 + (s.tree 0).bookedDark ≤ 1875 ∧
      (s.round - heldFence.roundTaken).toNat = 5 ∧ 5 ≤ 5 ∧ (4 : Nat) < 5 ∧
      ({ heldFence with change := .withdraw 0 3 } : Held).change = .withdraw 0 3 :=
  ⟨rfl, rfl, rfl, fun j h => by cases j <;> first | rfl | exact absurd rfl h, by decide, rfl,
   ⟨by simp [holding, running, part, Store.Wf, State.setPort], List.Pairwise.nil, List.Pairwise.nil, List.Pairwise.nil,
    by simp [holding, running, part, State.setPort], by simp [holding, running, part, State.setPort, State.reset]⟩,
   rfl, by decide, rfl, rfl, rfl, by decide, by decide, by decide, by decide, by decide, by decide, by decide, rfl⟩

/-- Two requests held, the Supervisor's taken first. -/
theorem witness_HeldRequestAtCut_two :
    let h' : Held := { heldFence with change := .switchBand 1, ticket := 1 }
    let s := (holding .supervisor heldFence none).setPort .accounting { resetPort 10 with inProgress := some h' }
    s.cutTaken = false ∧ s.queue = [] ∧ (s.port .supervisor).inProgress = some heldFence ∧
      (s.port .accounting).inProgress = some h' ∧ (s.port .line).inProgress = none ∧
      (∀ j : Port, (s.port j).waiting = none) ∧ heldFence.ticket < h'.ticket ∧ (s.port .accounting).stalled = false ∧
      (after .cut s).map (fun t => t.queue.map fun q => q.origin) = some [.supervisor, .accounting] :=
  ⟨rfl, rfl, rfl, rfl, rfl, fun j => by cases j <;> rfl, by decide, rfl, by decide⟩

/-- A queued change of round 9. -/
def queued (c : Change) : ChangeEntry := { origin := .supervisor, change := c, roundTaken := 9, voided := false }

theorem witness_FenceAndReleaseApplied :
    let s := running (.active someActive)
    let f : Fenced := { e := 5, need := 0, credit := 0, lastGranted := none, history := [], hushed := false, trial := false }
    tagOk 3 = true ∧ (queued (.fence 0 3)).voided = false ∧ (∀ h : Hunt, (s.tree 0).light.suspicion ≠ .hunt h) ∧
      s.entry 0 3 = some (home 7 (.active someActive)) ∧
      laterThan (home 7 (.active someActive)).occupied (queued (.fence 0 3)).roundTaken = false ∧
      laterThan 10 (queued (.fence 0 3)).roundTaken = true ∧ s.entry 0 4 = none ∧
      (running (.fenced f)).entry 0 3 = some (home 7 (.fenced f)) ∧ (s.tree 0).phase = .running ∧
      (home 7 (.leaving none)).state = .leaving ∧ (home 7 (.timed someTimed)).body = .timed someTimed ∧
      (home 7 (.silent { e := 5, hushed := false })).state ≠ .fenced :=
  ⟨rfl, rfl, nofun, rfl, by decide, by decide, rfl, rfl, rfl, rfl, rfl, by decide⟩

theorem witness_OtherChangesApplied :
    let s := running (.active someActive)
    (queued (.withdraw 0 3)).voided = false ∧ (queued (.switchBand 3)).change = .switchBand 3 ∧
      (queued (.treeSetting 0 .kCall 5)).change = .treeSetting 0 .kCall 5 ∧ tagOk 3 = true ∧
      s.entry 0 3 = some (home 7 (.active someActive)) ∧
      laterThan (home 7 (.active someActive)).occupied (queued (.uncap 0 3)).roundTaken = false ∧
      (home 7 (.active someActive)).state ≠ .leaving ∧ (home 7 (.leaving none)).state = .leaving ∧
      (∀ h : Hunt, (s.tree 0).light.suspicion ≠ .hunt h) ∧ s.meterOf 0 3 = none ∧
      ({ s with meters := [(2, zeroMeters 5 true)] } : State).meterOf 0 3 = some (zeroMeters 5 true) ∧ StoresCanonical s :=
  ⟨rfl, rfl, rfl, rfl, rfl, by decide, by decide, rfl, nofun, rfl, rfl, canonical_running _⟩

theorem witness_CountsFireWatches :
    let w : Watch := { tree := 0, tag := 3, direction := .both, band := none, threshold := 2, throttle := true, fired := false }
    let s := { running (.active someActive) with meters := [(2, zeroMeters 5 true)], watches := [(7, w)] }
    StoresCanonical s ∧ tagOk 3 = true ∧ s.meterOf 0 3 = some (zeroMeters 5 true) ∧
      (s.countUp 0 3 2).watches = [(7, { w with fired := true })] ∧ (s.countUp 0 3 1).watches = [(7, w)] ∧
      s.meterOf 0 4 = none ∧ ∀ x ∈ s.watches, 1 ≤ x.2.threshold :=
  ⟨⟨by simp [running, part, Store.Wf], by simp [Store.Wf], by simp [Store.Wf], List.Pairwise.nil, by simp [running, part],
    by simp⟩, by decide⟩

theorem witness_IntervalClosed :
    let s := { running (.active someActive) with
      meters := [(2, zeroMeters 5 true)], journal := { State.reset.journal with mark := 1 } }
    StoresCanonical s ∧ s.journal.records.length < s.journal.mark ∧ s.journal.mark ≤ s.journal.records.length + 1 ∧
      State.reset.journal.records.length + 0 < State.reset.journal.mark ∧ (s.closeTree 0).journal.records.length = 1 :=
  ⟨⟨by simp [running, part, Store.Wf], by simp [Store.Wf], List.Pairwise.nil, List.Pairwise.nil, by simp [running, part],
    by simp [running, part, State.reset]⟩, by decide⟩

theorem witness_JournalKept :
    let s := { running (.active someActive) with meters := [(2, zeroMeters 5 true)] }
    PortFree s .accounting ∧ 1 ≤ 16 ∧ 16 < 17 ∧ 1984 ≤ 1984 ∧ 1984 < 1985 ∧
      s.meterOf 0 3 = some (zeroMeters 5 true) ∧ s.entry 0 3 = some (home 7 (.active someActive)) ∧
      (zeroMeters 5 true).openedCut ≠ s.round ∧ (zeroMeters 10 true).openedCut = s.round ∧
      s.journal.records.length + s.journal.booked < 1984 ∧
      1984 ≤ ({ s with journal := { s.journal with booked := 1984 } } : State).journal.booked :=
  ⟨⟨rfl, rfl⟩, by decide⟩

theorem witness_WatchesSetAndCleared :
    let s := running (.active someActive)
    let w : Watch := { tree := 0, tag := 3, direction := .both, band := none, threshold := 281474976710655, throttle := true,
                       fired := false }
    PortFree s .accounting ∧ 7 < 8 ∧ 1 ≤ 281474976710655 ∧
      (3, Direction.both) ∈ [(1, Direction.up), (2, .down), (3, .both)] ∧ (2, true) ∈ [(1, false), (2, true)] ∧
      s.entry 0 4 = none ∧ s.entry 0 3 = some (home 7 (.active someActive)) ∧
      w.selectedSum (s.meterOf 0 3) < 1 ∧ 1 ≤ w.selectedSum (some { zeroMeters 5 true with up := Quad.all 1 }) ∧
      8 ≤ 8 ∧ 281474976710655 < 281474976710656 :=
  ⟨free_part _ _ _, by decide⟩

/-- The part of the step witnesses: an ACTIVE home on tree 0, a CUT at the front of the queue. -/
def beforeCut : State := { running (.active someActive) with pending := [.cut] }

theorem witness_StepCompletes : ∃ t : State, step beforeCut = .next t := ⟨_, rfl⟩

theorem witness_StepKeepsQueueAndJournal_queue : QueueWithin beforeCut :=
  ⟨by decide, fun p => by cases p <;> decide⟩

theorem witness_StepKeepsQueueAndJournal_journal : JournalWithin beforeCut := ⟨by decide, by decide⟩

theorem witness_StepKeepsPortsSound : LinesShown beforeCut ∧ NoticeKeysUnique beforeCut ∧ SlotsOrdered beforeCut :=
  ⟨fun p => by cases p <;> rfl, fun p => by cases p <;> exact List.Pairwise.nil, fun p _ => by cases p <;> rfl⟩

theorem witness_StepKeepsRosterSound : RosterSound beforeCut := sound_running _

theorem registers_beforeCut : RegistersInRange beforeCut :=
  ⟨fun t => match t with
    | 0 => by decide
    | 1 => by decide
    | 2 => by decide
    | 3 => by decide, by decide, by decide, by decide, by decide, fun p h hh => by cases p <;> cases hh⟩

theorem witness_StepKeepsRegistersInRange : RosterSound beforeCut ∧ RegistersInRange beforeCut :=
  ⟨sound_running _, registers_beforeCut⟩

/-- The end of a call window, while a CONTRACT of an earlier round waits for a VACANT slot of the tree. -/
def beforeWindowEnd : State :=
  { running (.active someActive) with
    pending := [.callWindowEnd 0 []]
    queue := [{ origin := .line, change := .contract 0 4 { c := 8, p := 8, w := 1 }, roundTaken := 4, voided := false }] }

theorem registers_beforeWindowEnd : RegistersInRange beforeWindowEnd :=
  ⟨registers_beforeCut.1, registers_beforeCut.2.1, registers_beforeCut.2.2.1, registers_beforeCut.2.2.2.1, by decide,
    registers_beforeCut.2.2.2.2.2⟩

theorem witness_StepKeepsBookingWithin :
    RosterSound beforeWindowEnd ∧ RegistersInRange beforeWindowEnd ∧ BookingWithin beforeWindowEnd ∧
      BookedAsQueued beforeWindowEnd ∧ beforeWindowEnd.pending = .callWindowEnd 0 [] :: [] ∧
      beforeWindowEnd.entry 0 4 = none ∧
      ∀ (k : TreeId) (light : List Burst) (rest : List Instr),
        beforeWindowEnd.pending = .callWindowEnd k light :: rest → NoFreshClaim beforeWindowEnd k :=
  ⟨sound_running _, registers_beforeWindowEnd, fun t => match t with
    | 0 => by decide
    | 1 => by decide
    | 2 => by decide
    | 3 => by decide, fun t tag e h he => by
    have hs : slotOf t tag = 2 := by
      by_cases h2 : slotOf t tag = 2
      · exact h2
      · exfalso
        have := he
        simp [State.entry, beforeWindowEnd, running, part, Store.read] at this
        exact h2 this.1
    simp [State.entry, hs, beforeWindowEnd, running, part, Store.read] at he
    subst he
    have hv : t.val = 0 ∧ tag = 3 := by
      simp only [slotOf, tagOk, decide_eq_true_eq, Bool.and_eq_true] at hs h
      omega
    obtain ⟨rfl, rfl⟩ : t = 0 ∧ tag = 3 := ⟨Fin.ext hv.1, hv.2⟩
    rfl, rfl, rfl, fun k light rest hp q hq tag v hc _ => by
    cases List.mem_singleton.1 hq
    decide⟩

theorem tags_beforeCut : TagsInRange beforeCut := fun t => match t with
  | 0 => ⟨by decide, nofun, nofun, nofun, nofun⟩
  | 1 => ⟨nofun, nofun, nofun, nofun, nofun⟩
  | 2 => ⟨nofun, nofun, nofun, nofun, nofun⟩
  | 3 => ⟨nofun, nofun, nofun, nofun, nofun⟩

theorem delays_beforeCut : DelaysWithin beforeCut :=
  ⟨⟨nofun, fun p => by cases p <;> exact nofun⟩, by
    intro t x hx
    match t with
    | 0 => cases hx with
      | head => exact ⟨by decide, trivial⟩
      | tail _ h => cases h
    | 1 => cases hx
    | 2 => cases hx
    | 3 => cases hx⟩

theorem witness_StepKeepsDelaysWithin : RosterSound beforeCut ∧ TagsInRange beforeCut ∧ DelaysWithin beforeCut :=
  ⟨sound_running _, tags_beforeCut, delays_beforeCut⟩

theorem witness_StepKeepsPlansCurrent : PlansCurrent beforeCut ∧ WindowsCurrent beforeCut :=
  ⟨fun t => match t with
    | 0 => ⟨by decide, by decide⟩
    | 1 => ⟨by decide, by decide⟩
    | 2 => ⟨by decide, by decide⟩
    | 3 => ⟨by decide, by decide⟩,
   fun t => match t with
    | 0 => ⟨by decide, by decide⟩
    | 1 => ⟨by decide, by decide⟩
    | 2 => ⟨by decide, by decide⟩
    | 3 => ⟨by decide, by decide⟩⟩

theorem witness_StepKeepsHushedOwingWake : DropsAlone beforeCut ∧ SuspicionHeld beforeCut ∧ HushedOwesWake beforeCut :=
  ⟨by unfold DropsAlone; decide, fun t _ => by
    match t with
    | 0 => rfl
    | 1 => rfl
    | 2 => rfl
    | 3 => rfl, fun t _ => by
    match t with
    | 0 => decide
    | 1 => decide
    | 2 => decide
    | 3 => decide⟩

theorem witness_StepKeepsBuffersAndMeters_buffers : BuffersWithin beforeCut :=
  ⟨by decide, fun t => match t with
    | 0 => ⟨by decide, by decide⟩
    | 1 => ⟨by decide, by decide⟩
    | 2 => ⟨by decide, by decide⟩
    | 3 => ⟨by decide, by decide⟩, by decide⟩

theorem witness_StepKeepsBuffersAndMeters_meters : MetersInRange beforeCut := ⟨by decide, by decide⟩

end Sys2Proof.Tests
end

section
/-! PROOFS. READ ROSTER at a port with empty slots (O14), on rules for argument checks and for arrival at such a port. -/

namespace Sys2Proof.Machine

/-! ## Argument checks -/

@[simp] theorem treeOf_val (k : TreeId) : treeOf k.val = some k := dif_pos k.isLt

theorem treeOf_eq_none {n : Nat} (h : 4 ≤ n) : treeOf n = none := dif_neg (Nat.not_lt.2 h)

theorem tagOk_eq_true_iff {tag : Nat} : tagOk tag = true ↔ 1 ≤ tag ∧ tag ≤ 128 := by
  simp only [tagOk, Bool.and_eq_true, decide_eq_true_eq]

theorem tagOk_eq_false_iff {tag : Nat} : tagOk tag = false ↔ tag = 0 ∨ 128 < tag := by
  rw [← Bool.not_eq_true, tagOk_eq_true_iff]
  omega

/-! ## Arrival at a port whose slots are empty (R172) -/

section
variable {s : State} {p : Port}

theorem State.takeWaiting_of_portFree (h : PortFree s p) : s.takeWaiting p = s := by
  obtain ⟨hprog, hwait⟩ := h
  simp only [State.takeWaiting, hprog, hwait]

theorem State.intoSlots_of_inProgress_none (h : (s.port p).inProgress = none) (a : Arrived) :
    s.intoSlots p a = s.take p a := by
  simp only [State.intoSlots, h]

/-- With no request before it at its port, whatever arrives is taken at once. -/
theorem State.arrive_of_portFree (h : PortFree s p) (a : Arrived) : s.arrive p a = s.take p a := by
  obtain ⟨seq, ask⟩ := a
  have hslots : (s.takeWaiting p).intoSlots p ⟨seq, ask⟩ = s.take p ⟨seq, ask⟩ := by
    rw [takeWaiting_of_portFree h, intoSlots_of_inProgress_none h.1]
  cases ask with
  | portReset => rfl
  | malformed _ => exact hslots
  | request _ => exact hslots

theorem State.take_of_permitted {r : Request} (h : permitted p r = true) (q : Byte) :
    s.take p { seq := q, ask := .request r } = s.carryOut p q r := if_pos h

end

/-! ## READ ROSTER (R40) -/

/-- The results of a READ ROSTER: each slot from the first tag onward, as it stands. -/
def State.rosterSlots (s : State) (k : TreeId) (first count : Nat) : List (Nat × Option Entry) :=
  (List.range' first count).map fun tag => (tag, s.entry k tag)

section
variable (s : State) (p : Port) (q : Byte)

@[simp] theorem State.length_rosterSlots (k : TreeId) (first count : Nat) :
    (s.rosterSlots k first count).length = count := by
  rw [rosterSlots, List.length_map, List.length_range']

theorem State.getElem?_rosterSlots (k : TreeId) (first : Nat) {count i : Nat} (h : i < count) :
    (s.rosterSlots k first count)[i]? = some (first + i, s.entry k (first + i)) := by
  rw [rosterSlots, List.getElem?_map, List.getElem?_range' h, Nat.one_mul, Option.map_some]

theorem State.takeReadRoster_of_in_range (k : TreeId) {first count : Nat} (hfirst : 1 ≤ first) (hcount : 1 ≤ count)
    (hmost : count ≤ 8) (hreach : first + count ≤ 129) :
    s.takeReadRoster p q k.val first count = s.reply p q .done (.roster (s.rosterSlots k first count)) := by
  have hchecks : ¬ (tagOk first = false ∨ count < 1 ∨ 8 < count ∨ 128 < first + count - 1) := by
    rw [tagOk_eq_false_iff]
    omega
  simp only [takeReadRoster, treeOf_val, if_neg hchecks, rosterSlots]

theorem State.takeReadRoster_of_out_of_range {n first count : Nat}
    (h : 4 ≤ n ∨ first = 0 ∨ count = 0 ∨ 8 < count ∨ 129 < first + count) :
    s.takeReadRoster p q n first count = s.refuse p q .badArgument := by
  obtain htree | htree := (Nat.lt_or_ge n 4).symm
  · simp only [takeReadRoster, treeOf_eq_none htree]
  · obtain ⟨k, rfl⟩ : ∃ k : TreeId, k.val = n := ⟨⟨n, htree⟩, rfl⟩
    have hchecks : tagOk first = false ∨ count < 1 ∨ 8 < count ∨ 128 < first + count - 1 := by
      rw [tagOk_eq_false_iff]
      omega
    simp only [takeReadRoster, treeOf_val, if_pos hchecks]

variable {s p}

/-- Every port may ask for it, so that at a port with empty slots the command is the rule of R40 itself. -/
theorem exec_readRoster_of_portFree (h : PortFree s p) (n first count : Nat) :
    exec (.readRoster p q n first count) s = .next (s.takeReadRoster p q n first count) :=
  have hpermitted : permitted p (.readRoster n first count) = true := rfl
  congrArg Host.Outcome.next ((State.arrive_of_portFree h _).trans (State.take_of_permitted hpermitted q))

end

/-- Settles O14: the request is taken at once (R172) and stands in the role table for each port (R174), so its answer is that
of the argument checks of R40, slot by slot. -/
theorem readRosterAnswer : Obligations.ReadRosterAnswer := by
  intro s p q hfree
  constructor
  · intro k first count hfirst hcount hmost hreach
    refine ⟨s.rosterSlots k first count, ?_, s.length_rosterSlots k first count, fun i hi => ?_⟩
    · rw [exec_readRoster_of_portFree q hfree, s.takeReadRoster_of_in_range p q k hfirst hcount hmost hreach]
    · exact s.getElem?_rosterSlots k first hi
  · intro n first count hrange
    rw [exec_readRoster_of_portFree q hfree, s.takeReadRoster_of_out_of_range p q hrange]
    rfl

end Sys2Proof.Machine
end

section
/-! PROOFS. READ LIGHT at a supervisor port with empty slots (O15), on the rules for arrival at such a port. -/

namespace Sys2Proof.Machine

/-! ## READ LIGHT (R146) -/

section
variable {s : State} {p : Port} (q : Byte)

theorem State.takeReadLight_of_out_of_range {n : Nat} (h : 4 ≤ n) :
    s.takeReadLight p q n = s.refuse p q .badArgument := by
  simp only [takeReadLight, treeOf_eq_none h]

/-- The role table lets only the supervisor ask for it (R174): there, with empty slots, the command is the rule of R146
itself. -/
theorem exec_readLight_of_portFree (h : PortFree s .supervisor) (n : Nat) :
    exec (.readLight .supervisor q n) s = .next (s.takeReadLight .supervisor q n) :=
  have hpermitted : permitted .supervisor (.readLight n) = true := rfl
  congrArg Host.Outcome.next ((State.arrive_of_portFree h _).trans (State.take_of_permitted hpermitted q))

end

/-- Settles O15: the request is taken at once (R172), so its answer is that of R146, where the effective limit shown is the
one of R124 for the limit, scale and baseline shown beside it. -/
theorem readLightAnswer : Obligations.ReadLightAnswer := by
  intro s q hfree
  constructor
  · intro k
    rw [exec_readLight_of_portFree q hfree]
    simp only [State.takeReadLight, treeOf_val, Light.effectiveLimit]
  · intro n hrange
    rw [exec_readLight_of_portFree q hfree, State.takeReadLight_of_out_of_range q hrange, State.refuse]

end Sys2Proof.Machine
end

section
/-! PROOFS. What a command can do to the part, said once: a chain of moves, each of which changes one block, with what every
invariant of the part asks of it. -/

namespace Sys2Proof.Machine

/-! ## What a rule may make of one entry, one tree, one port -/

/-- R65, R31, of one entry: DROP is owed exactly while it is LEAVING, and alone. -/
def Entry.DropAlone (e : Entry) : Prop :=
  (e.state = .leaving → e.owed = { Owed.none with drop := true }) ∧ (e.owed.drop = true → e.state = .leaving)

/-- R140, of one entry: hushed only while a WAKE to it is owed. -/
def Entry.WakeOwed (e : Entry) : Prop := e.hushed = true → e.owed.wake = true

/-- What every rule but the bookings and a new home keeps of the entry it changes, whatever tree it stands on. -/
structure Entry.Keeps (e e' : Entry) : Prop where
  serial : e'.serial = e.serial
  occupied : e'.occupied = e.occupied
  contract : e'.contract = e.contract
  booked : e'.booked = e.booked
  drops : e.DropAlone → e'.DropAlone

/-- What a rule keeps of the entry it changes in slot `k` of the part: its fields, its ranges, the WAKE it owes outside a hunt,
and its delays within T. -/
structure EntryStep (s : State) (k : Nat) (e e' : Entry) : Prop extends Entry.Keeps e e' where
  range : RegistersInRange s → e.inRange = true → e'.inRange = true
  wakes : ∀ t : TreeId, t.val = slotTree k → s.hunting t = false → e.DropAlone → e.WakeOwed → e'.WakeOwed
  delays : TagsInRange s → ∀ t : TreeId, t.val = slotTree k →
    e.delaysWithin (s.tree t).settings.target → e'.delaysWithin (s.tree t).settings.target

/-- A roster whose entries are those of a part of another, in the same slots, each as a rule may leave it. -/
def RosterStep (s : State) (ros ros' : Store Entry) : Prop :=
  ∃ l, l.Sublist ros ∧ List.Forall₂ (fun x y => y.1 = x.1 ∧ EntryStep s x.1 x.2 y.2) l ros'

/-- R17, of one tree: the tags that its plans, carried grant, windows, answer and booked PROBE name. -/
def Tree.TagsOk (x : Tree) : Prop :=
  (∀ r ∈ x.plans, ∀ g ∈ r.grants, tagOk g.tag = true) ∧
  (∀ c ∈ x.checker.carried, tagOk c.grant.tag = true) ∧
  (∀ w ∈ x.engine.windows, ∀ tag y n, w.kind = .probe tag y n → tagOk tag = true) ∧
  (∀ tag, x.engine.chosen = some (.window (.probe tag)) → tagOk tag = true) ∧
  ∀ b ∈ x.engine.bookedProbe, tagOk b.2 = true

/-- R1, of one tree. -/
def Tree.SuspicionOk (x : Tree) : Prop := x.phase ≠ .running → x.light.suspicion = .clear

/-- R70, of one tree. -/
def Tree.BufferOk (x : Tree) : Prop := downBytes x.framer.buffer ≤ bufferBytes ∧ ∀ p ∈ x.framer.buffer, p.fits = true

/-- Whether the supervisor of a tree is in HUNT. -/
def Tree.InHunt (x : Tree) : Prop := ∃ h, x.light.suspicion = .hunt h

/-- What a rule keeps of the tree it changes, the plans and windows that a cut adds apart. -/
structure TreeStep (s : State) (t : TreeId) (x : Tree) : Prop where
  range : Store.Wf s.roster → (s.tree t).inRange = true → x.inRange = true
  plans : x.plans.Sublist (s.tree t).plans
  windows : x.engine.windows.Sublist (s.tree t).engine.windows
  tags : (s.tree t).TagsOk → x.TagsOk
  suspicion : (s.tree t).SuspicionOk → x.SuspicionOk
  wakes : DropsAlone s → SuspicionHeld s → (s.tree t).InHunt → ¬ x.InHunt → ∀ y ∈ s.treeEntries t, y.2.WakeOwed
  delays : ∀ y ∈ s.treeEntries t, y.2.delaysWithin (s.tree t).settings.target → y.2.delaysWithin x.settings.target
  booking : s.bookingSum t + (s.tree t).bookedCall + (s.tree t).bookedDark ≤ roundQuanta →
    s.bookingWith t x.settings.overhead + x.bookedCall + x.bookedDark ≤ roundQuanta
  buffer : BuffersWithin s → x.BufferOk

/-- What a rule keeps of the port it changes, the slots and allocations apart. -/
structure PortState.Keeps (x x' : PortState) : Prop where
  inProgress : x'.inProgress = x.inProgress
  allocation : x'.allocation = x.allocation
  waiting : (x.inProgress = none → x.waiting = none) → x'.inProgress = none → x'.waiting = none
  line : x.line = lineCondition x.threshold x.notices → x'.line = lineCondition x'.threshold x'.notices
  keys : (x.notices.map fun e => (e.kind, e.tree)).Nodup → (x'.notices.map fun e => (e.kind, e.tree)).Nodup

/-! ## Moves -/

/-- Empties a port's waiting slot. -/
def State.clearWaiting (s : State) (p : Port) : State := s.modPort p fun x => { x with waiting := none }

/-- Books the final place of a WITHDRAW (R167); every other change books none. -/
def State.bookPlace (s : State) (c : Change) : State :=
  if c.isWithdraw then { s with journal := { s.journal with booked := s.journal.booked + 1 } } else s

/-- A change may be staged: its values are in range, its journal place is there, and it is none that SET TREE carries out at
once. -/
structure Stageable (s : State) (c : Change) : Prop where
  range : RegistersInRange s → c.inRange = true
  mayWait : c.mayWait = true
  place : c.isWithdraw = true → s.journal.records.length + s.journal.booked < journalPlaces

/-- One change of one block, with what the invariants ask of it. `R` stands for the ranges of the changes that wait, where an
invariant rests on them. -/
inductive Move (R : Prop) : State → State → Prop
  | port (s : State) (p : Port) (x : PortState) (h : (s.port p).Keeps x) : Move R s (s.setPort p x)
  | tree (s : State) (t : TreeId) (x : Tree) (h : TreeStep s t x) : Move R s (s.setTree t x)
  | roster (s : State) (ros : Store Entry) (h : Store.Wf s.roster → RosterStep s s.roster ros) :
      Move R s { s with roster := ros }
  | meters (s : State) (m : Store Meters) (hw : Store.Wf s.meters → Store.Wf m)
      (hr : (∀ x ∈ s.meters, x.2.inRange = true) → ∀ x ∈ m, x.2.inRange = true) : Move R s { s with meters := m }
  | watches (s : State) (w : Store Watch) (hw : Store.Wf s.watches → Store.Wf w)
      (hk : (∀ x ∈ s.watches, x.1 < 8) → ∀ x ∈ w, x.1 < 8) : Move R s { s with watches := w }
  | journal (s : State) (j : Journal) (hb : j.booked = s.journal.booked)
      (hl : s.journal.records.length + s.journal.booked ≤ journalPlaces → j.records.length + j.booked ≤ journalPlaces)
      (hm : MetersInRange s → ∀ r ∈ j.records, r.meters.inRange = true) : Move R s { s with journal := j }
  | admissions (s : State) (a : Store Admission) (hw : Store.Wf s.admissions → Store.Wf a)
      (hr : (∀ x ∈ s.admissions, x.2.contract.inRange = true) → ∀ x ∈ a, x.2.contract.inRange = true)
      (hl : Store.Wf s.admissions → s.admissions.length ≤ admissionPlaces → a.length ≤ admissionPlaces) : Move R s { s with admissions := a }
  | upBuffer (s : State) (b : List UpPacket) (h : upBytes s.upBuffer ≤ bufferBytes → upBytes b ≤ bufferBytes) :
      Move R s { s with upBuffer := b }
  | heldPacket (s : State) (o : Option OfferedPacket)
      (h : (∀ p ∈ s.heldPacket, p.packet.fits = true) → ∀ p ∈ o, p.packet.fits = true) : Move R s { s with heldPacket := o }
  | plain (s : State) (o : Bool) (r : List (NoticeKind × Port)) (b : BandId) (n : Nat) (d : List UpPacket) :
      Move R s { s with openMode := o, routes := r, band := b, tickets := n, delivered := d }
  | cutTaken (s : State) : Move R s { s with cutTaken := true }
  | hold (s : State) (p : Port) (q : Byte) (c : Change) (hc : Stageable s c) (hp : (s.port p).inProgress = none) :
      Move R s (heldWith (s.bookPlace c) p q c)
  | enter (s : State) (p : Port) (c : Change) (hc : Stageable s c) (hm : s.mayEnter p = true)
      (hb : s.bookingPasses c s.round = true) : Move R s ((s.bookPlace c).enterQueue p c s.round)
  | dropHeld (s : State) (p : Port) (h : Held) (hp : (s.port p).inProgress = some h) :
      Move R s (((s.freeSlot p).dropHeld h).clearWaiting p)
  | enterHeld (s : State) (p : Port) (h : Held) (hp : (s.port p).inProgress = some h) (hm : s.mayEnter p = true)
      (hb : s.bookingPasses h.change h.roundTaken = true) :
      Move R s (((s.freeSlot p).enterQueue p h.change h.roundTaken).clearWaiting p)
  | allocate (s : State) (l a v : Nat) (hs : l + a + v ≤ 32) (hl : s.queuedOf .line ≤ l ∨ (s.port .line).allocation ≤ l)
      (ha : s.queuedOf .accounting ≤ a ∨ (s.port .accounting).allocation ≤ a)
      (hv : s.queuedOf .supervisor ≤ v ∨ (s.port .supervisor).allocation ≤ v) :
      Move R s (((s.modPort .line fun x => { x with allocation := l }).modPort .accounting
        fun x => { x with allocation := a }).modPort .supervisor fun x => { x with allocation := v })
  | reorder (s : State) :
      Move R s { s with queue := (s.queue.filter fun q => q.change.urgent) ++ s.queue.filter fun q => !q.change.urgent }
  | pop (s : State) (q : ChangeEntry) (rest : List ChangeEntry) (hq : s.queue = q :: rest)
      (hw : q.change.isWithdraw = false) (hc : ∀ t tag v, q.change ≠ .contract t tag v) : Move R s { s with queue := rest }
  | popSetting (s : State) (q : ChangeEntry) (rest : List ChangeEntry) (t : TreeId) (name : SettingName) (v : Nat)
      (hq : s.queue = q :: rest) (hc : q.change = .treeSetting t name v) :
      Move R s ({ s with queue := rest }.modTree t fun x => { x with settings := x.settings.put name v })
  | popContract (s : State) (q : ChangeEntry) (rest : List ChangeEntry) (t : TreeId) (tag : Nat) (v : Contract)
      (hq : s.queue = q :: rest) (hc : q.change = .contract t tag v) :
      Move R s ({ s with queue := rest }.applyContract q t tag v).state
  | popWithdraw (s : State) (q : ChangeEntry) (rest : List ChangeEntry) (hq : s.queue = q :: rest)
      (hw : q.change.isWithdraw = true) : Move R s { s with queue := rest }.releasePlace
  | popFinal (s : State) (q : ChangeEntry) (rest : List ChangeEntry) (r : Record) (hq : s.queue = q :: rest)
      (hw : q.change.isWithdraw = true) (hr : MetersInRange s → r.meters.inRange = true) :
      Move R s ({ s with queue := rest }.appendRecord r).releasePlace
  | voidSlot (s : State) (t : TreeId) (tag : Nat) (h : R → tagOk tag = true) : Move R s ((s.voidQueued t tag).rebook t tag)

/-- A chain of moves. -/
abbrev Moves (R : Prop) : State → State → Prop := Relation.ReflTransGen (Move R)

/-- What a command can do beside moves: a plan, a window record, the end of a round, and, where `N` holds, a new home. -/
inductive Act (R N : Prop) : State → State → Prop
  | move {s s' : State} (h : Move R s s') : Act R N s s'
  | newHome (s : State) (t : TreeId) (tag : Nat) (serial : Serial) (k : Contract) (hn : N) (hv : s.lowestVacant t = some tag)
      (hs : s.holderOf serial = none) (hr : RegistersInRange s → k.inRange = true)
      (hb : k.c = 0 ∨ s.bookingSum t + (k.c + (s.tree t).settings.overhead) + (s.tree t).bookedCall + (s.tree t).bookedDark ≤
        roundQuanta) :
      Act R N s (s.setEntry t tag (newHeard serial s.round k))
  | plan (s : State) (t : TreeId) (x : Tree) (r : PlanRecord) (hx : TreeStep s t x) (hg : ∀ g ∈ r.grants, tagOk g.tag = true) :
      Act R N s (s.setTree t { x with plans := x.plans ++ [r] })
  | window (s : State) (t : TreeId) (w : WindowRecord) (hw : TagsInRange s → ∀ tag y n, w.kind = .probe tag y n → tagOk tag = true) :
      Act R N s (s.modEngine t fun g => { g with windows := g.windows ++ [w] })
  | roll (s : State) :
      Act R N s { s with
        round := s.round + 1
        cutTaken := false
        trees :=
          { q0 := s.trees.q0.roll s.round, q1 := s.trees.q1.roll s.round, q2 := s.trees.q2.roll s.round,
            q3 := s.trees.q3.roll s.round } }

/-- A chain of acts. -/
abbrev Acts (R N : Prop) : State → State → Prop := Relation.ReflTransGen (Act R N)

theorem Moves.acts {R N : Prop} {s s' : State} (h : Moves R s s') : Acts R N s s' := Relation.ReflTransGen.mono (fun _ _ => Act.move) _ _ h

theorem Moves.refl {R : Prop} (s : State) : Moves R s s := Relation.ReflTransGen.refl

theorem Move.moves {R : Prop} {s s' : State} (h : Move R s s') : Moves R s s' := Relation.ReflTransGen.single h

/-- Moves may be followed by moves that rest on what the first ones leave. -/
theorem Moves.then {R : Prop} {s s' s'' : State} (h : Moves R s s') (h' : Moves R s' s'') : Moves R s s'' := h.trans h'

/-- What every move keeps, every chain of moves keeps. -/
theorem Moves.keep {R : Prop} {P : State → Prop} (hP : ∀ s s', Move R s s' → P s → P s') {s s' : State} (h : Moves R s s')
    (hs : P s) : P s' := by
  induction h with
  | refl => exact hs
  | tail _ hm ih => exact hP _ _ hm ih

/-- What every act keeps, every chain of acts keeps. -/
theorem Acts.keep {R N : Prop} {P : State → Prop} (hP : ∀ s s', Act R N s s' → P s → P s') {s s' : State} (h : Acts R N s s')
    (hs : P s) : P s' := by
  induction h with
  | refl => exact hs
  | tail _ hm ih => exact hP _ _ hm ih

/-- A fold whose every step is a chain of moves is one. -/
theorem Moves.foldl {R : Prop} {α : Type} (f : State → α → State) (h : ∀ s a, Moves R s (f s a)) (l : List α) (s : State) :
    Moves R s (l.foldl f s) := by
  induction l generalizing s with
  | nil => exact .refl s
  | cons a l ih => exact (h s a).trans (ih _)

end Sys2Proof.Machine
end

section
/-! PROOFS. The moves of the shared operations: rosters, entries, ports, trees. -/

namespace Sys2Proof.Machine

variable {R : Prop} {s : State}

/-! ## Rosters -/

theorem RosterStep.filterMap (ros : Store Entry) (g : Nat × Entry → Option (Nat × Entry))
    (h : ∀ x ∈ ros, ∀ y, g x = some y → y.1 = x.1 ∧ EntryStep s x.1 x.2 y.2) : RosterStep s ros (ros.filterMap g) := by
  induction ros with
  | nil => exact ⟨[], List.Sublist.refl _, .nil⟩
  | cons x ros ih =>
    obtain ⟨l, hl, hf⟩ := ih fun z hz => h z (List.mem_cons_of_mem _ hz)
    cases hg : g x with
    | none => exact ⟨l, hl.cons x, by simpa [hg] using hf⟩
    | some y => exact ⟨x :: l, hl.cons_cons x, by simpa [hg] using ⟨h x (by simp) y hg, hf⟩⟩

theorem RosterStep.map (ros : Store Entry) (g : Nat × Entry → Nat × Entry)
    (h : ∀ x ∈ ros, (g x).1 = x.1 ∧ EntryStep s x.1 x.2 (g x).2) : RosterStep s ros (ros.map g) := by
  rw [← List.filterMap_eq_map]
  refine .filterMap ros _ fun x hx y hy => ?_
  obtain rfl : g x = y := by simpa using hy
  exact h x hx

/-- Every entry of a result stands for one of the store before, in the same slot. -/
theorem RosterStep.of_mem {ros ros' : Store Entry} (h : RosterStep s ros ros') {y : Nat × Entry} (hy : y ∈ ros') :
    ∃ e, (y.1, e) ∈ ros ∧ EntryStep s y.1 e y.2 := by
  obtain ⟨l, hl, hf⟩ := h
  have hmem : ∃ x ∈ l, y.1 = x.1 ∧ EntryStep s x.1 x.2 y.2 := by
    clear hl
    induction hf with
    | nil => simp at hy
    | cons hxy _ ih =>
      obtain rfl | hy := List.mem_cons.1 hy
      · exact ⟨_, List.mem_cons_self, hxy⟩
      · obtain ⟨x, hx, h⟩ := ih hy
        exact ⟨x, List.mem_cons_of_mem _ hx, h⟩
  obtain ⟨⟨k, e⟩, hx, hk, hs⟩ := hmem
  obtain rfl : y.1 = k := hk
  exact ⟨e, hl.subset hx, hs⟩

/-- Writing to a key that is listed changes the value it holds. -/
theorem Store.write_eq_modify {α : Type} {k : Nat} {v v' : α} {st : Store α} (hw : Store.Wf st)
    (h : Store.read k st = some v) : Store.write k v' st = Store.modify k (fun _ => v') st := by
  induction st with
  | nil => simp at h
  | cons x st ih =>
    obtain ⟨k1, v1⟩ := x
    obtain ⟨hlt, hw'⟩ := List.pairwise_cons.1 hw
    rw [Store.read_cons] at h
    by_cases hk : k = k1
    · subst hk
      have hrest : Store.modify k (fun _ => v') st = st := by
        refine (List.map_congr_left fun y hy => ?_).trans (List.map_id st)
        have := hlt y hy
        exact if_neg (by simp only at this; omega)
      simp only [Store.write, Nat.lt_irrefl, if_true, if_false]
      simp only [Store.modify, List.map_cons, if_true] at hrest ⊢
      rw [hrest]
    · rw [if_neg hk] at h
      have hm := hlt _ (Store.mem_of_read h)
      simp only [Store.write, if_neg hk, if_neg (show ¬ k < k1 by simp only at hm; omega), ih hw' h]
      simp only [Store.modify, List.map_cons, if_neg (Ne.symm hk)]

/-! ## Entries -/

/-- What a rule keeps of the entry it changes where it hushes none and lengthens no delay. -/
structure Entry.Rests (e e' : Entry) : Prop extends Entry.Keeps e e' where
  range : e.inRange = true → e'.inRange = true
  wakes : e.DropAlone → e.WakeOwed → e'.WakeOwed
  delays : ∀ target, e.delaysWithin target → e'.delaysWithin target

theorem Entry.Rests.step {e e' : Entry} (h : e.Rests e') (k : Nat) : EntryStep s k e e' :=
  { h.toKeeps with
    range := fun _ => h.range
    wakes := fun _ _ _ => h.wakes
    delays := fun _ _ _ => h.delays _ }

theorem Entry.Rests.refl (e : Entry) : e.Rests e := ⟨⟨rfl, rfl, rfl, rfl, id⟩, id, fun _ => id, fun _ => id⟩

theorem Entry.Rests.trans {e e' e'' : Entry} (h : e.Rests e') (h' : e'.Rests e'') : e.Rests e'' :=
  ⟨⟨h'.serial.trans h.serial, h'.occupied.trans h.occupied, h'.contract.trans h.contract, h'.booked.trans h.booked,
    h'.drops ∘ h.drops⟩, h'.range ∘ h.range, fun hd hw => h'.wakes (h.drops hd) (h.wakes hd hw), fun T => h'.delays T ∘ h.delays T⟩

theorem Entry.dropAlone_of_leaving {e : Entry} (h : e.state = .leaving) :
    e.DropAlone ↔ e.owed = { Owed.none with drop := true } := by simp [Entry.DropAlone, h]

theorem Entry.dropAlone_of_ne {e : Entry} (h : e.state ≠ .leaving) : e.DropAlone ↔ e.owed.drop = false := by
  simp [Entry.DropAlone, h]

/-- What changes the owed set alone keeps an entry's DROP where it keeps the set of a LEAVING entry, and owes no other entry a
DROP. -/
theorem Entry.dropAlone_owed {e : Entry} {o : Owed} (h : e.DropAlone)
    (hl : e.state = .leaving → e.owed = { Owed.none with drop := true } → o = { Owed.none with drop := true })
    (ho : e.state ≠ .leaving → e.owed.drop = false → o.drop = false) : { e with owed := o }.DropAlone := by
  by_cases hs : e.state = .leaving
  · exact (Entry.dropAlone_of_leaving (e := { e with owed := o }) hs).2 (hl hs ((Entry.dropAlone_of_leaving hs).1 h))
  · exact (Entry.dropAlone_of_ne (e := { e with owed := o }) hs).2 (ho hs ((Entry.dropAlone_of_ne hs).1 h))

theorem Owed.add_of_drop {o : Owed} (h : o.drop = true) (k : OrderKind) : o.add k = o := if_pos h

theorem Owed.add_drop {o : Owed} {k : OrderKind} (hk : k ≠ .drop) : (o.add k).drop = o.drop := by
  unfold Owed.add
  split
  · rfl
  · cases k <;> first | rfl | exact absurd rfl hk

theorem Entry.owe_dropAlone {e : Entry} {k : OrderKind} (hk : k ≠ .drop) (h : e.DropAlone) : (e.owe k).DropAlone :=
  Entry.dropAlone_owed h (fun _ ho => by rw [Owed.add_of_drop (by rw [ho]), ho]) fun _ ho => by rw [Owed.add_drop hk, ho]

/-- Making an order owed, DROP apart, changes no field but the set; it takes out a WAKE only where it is HUSH. -/
theorem Entry.Rests.owe (e : Entry) {k : OrderKind} (hk : k ≠ .drop) (hh : k ≠ .hush) : e.Rests (e.owe k) where
  serial := rfl
  occupied := rfl
  contract := rfl
  booked := rfl
  range := id
  drops := Entry.owe_dropAlone hk
  wakes _ hw hhush := by
    have := hw hhush
    rw [Entry.owe_owed]
    unfold Owed.add
    split
    · exact this
    · cases k <;> first | exact this | rfl | exact absurd rfl hk | exact absurd rfl hh
  delays _ := id

theorem Entry.Rests.wake (e : Entry) : e.Rests e.wake := by
  unfold Entry.wake
  split
  · exact .owe e nofun nofun
  · exact .refl e

/-- An order that is sent leaves the set; a WAKE that is sent is the model's `sent` with the hushed mark cleared. -/
theorem Entry.Rests.sent (e : Entry) {k : OrderKind} (hw : k ≠ .wake) (hd : k = .drop → e.state ≠ .leaving) :
    e.Rests (e.sent k) where
  serial := rfl
  occupied := rfl
  contract := rfl
  booked := rfl
  range := id
  drops h := Entry.dropAlone_owed h
    (fun hl ho => by
      rw [ho]
      cases k <;> first | rfl | exact absurd hl (hd rfl))
    fun _ ho => by cases k <;> first | exact ho | rfl
  wakes _ h hh := by
    have := h hh
    unfold Entry.sent
    cases k <;> first | exact this | exact absurd rfl hw
  delays _ := id

theorem Entry.setHushed_inRange (e : Entry) (b : Bool) : (e.setHushed b).inRange = e.inRange := by
  unfold Entry.setHushed Entry.inRange
  obtain ⟨_, _, _, _, _, _, body⟩ := e
  cases body <;> rfl

theorem Entry.setHushed_delaysWithin (e : Entry) (b : Bool) (target : Nat) :
    (e.setHushed b).delaysWithin target = e.delaysWithin target := by
  unfold Entry.setHushed Entry.delaysWithin
  obtain ⟨_, _, _, _, _, _, body⟩ := e
  cases body <;> rfl

theorem Entry.Keeps.setHushed (e : Entry) (b : Bool) : e.Keeps (e.setHushed b) where
  serial := e.setHushed_serial b
  occupied := by unfold Entry.setHushed; split <;> rfl
  contract := by unfold Entry.setHushed; split <;> rfl
  booked := by unfold Entry.setHushed; split <;> rfl
  drops h := by rwa [Entry.DropAlone, Entry.setHushed_state, Entry.setHushed_owed]

theorem Entry.setHushed_false_hushed (e : Entry) : (e.setHushed false).hushed = false := by
  unfold Entry.setHushed Entry.hushed
  obtain ⟨_, _, _, _, _, _, body⟩ := e
  cases body <;> rfl

theorem Entry.sent_wake_dropAlone {e : Entry} (h : e.DropAlone) : (e.sent .wake).DropAlone :=
  Entry.dropAlone_owed h (fun _ ho => by rw [ho]; rfl) fun _ ho => ho

theorem Entry.Rests.sentWake (e : Entry) : e.Rests ((e.sent .wake).setHushed false) :=
  have hk := Entry.Keeps.setHushed (e.sent .wake) false
  { serial := hk.serial
    occupied := hk.occupied
    contract := hk.contract
    booked := hk.booked
    range := fun h => by rwa [Entry.setHushed_inRange]
    drops := fun h => hk.drops (Entry.sent_wake_dropAlone h)
    wakes := fun _ _ h => by
      rw [Entry.setHushed_false_hushed] at h
      exact absurd h (by decide)
    delays := fun target h => by
      rw [Entry.setHushed_delaysWithin]
      exact h }

/-- Hushing keeps all but the WAKE owed; it happens in a hunt alone (R132). -/
theorem Entry.Keeps.hush (e : Entry) : e.Keeps e.hush := by
  have howe : ∀ e : Entry, e.Keeps (e.owe .hush) := fun e => ⟨rfl, rfl, rfl, rfl, Entry.owe_dropAlone nofun⟩
  unfold Entry.hush
  split
  · split
    · exact howe e
    · exact (Entry.Rests.refl e).toKeeps
  · have h := Entry.Keeps.setHushed e true
    have h' := howe (e.setHushed true)
    exact ⟨h'.serial.trans h.serial, h'.occupied.trans h.occupied, h'.contract.trans h.contract, h'.booked.trans h.booked,
      h'.drops ∘ h.drops⟩

theorem Entry.hush_inRange (e : Entry) : e.hush.inRange = e.inRange := by
  unfold Entry.hush
  split
  · split <;> rfl
  · exact Entry.setHushed_inRange e true

theorem Entry.hush_delaysWithin (e : Entry) (target : Nat) : e.hush.delaysWithin target ↔ e.delaysWithin target := by
  unfold Entry.hush
  split
  · split <;> rfl
  · exact Iff.of_eq (Entry.setHushed_delaysWithin e true target)

theorem EntryStep.hush {k : Nat} (e : Entry) (h : ∀ t : TreeId, t.val = slotTree k → s.hunting t = true) :
    EntryStep s k e e.hush :=
  { Entry.Keeps.hush e with
    range := fun _ h => by rwa [Entry.hush_inRange]
    wakes := fun t ht hn => by
      rw [h t ht] at hn
      exact absurd hn (by decide)
    delays := fun _ _ _ => (Entry.hush_delaysWithin e _).2 }

/-! ## Bodies -/

/-- The fields of a body in their ranges (section 2.2). -/
def Body.inRange : Body → Bool
  | .heard f => f.tries ≤ 3
  | .timed f => f.misses ≤ 3
  | .active f => f.missCount ≤ 16 && f.need ≤ 65535 && f.credit ≤ 482048 && f.history.length ≤ 8
  | .silent _ => true
  | .fenced f => f.need ≤ 65535 && f.credit ≤ 482048 && f.history.length ≤ 8
  | .leaving _ => true

theorem Entry.inRange_eq (e : Entry) : e.inRange = (e.contract.inRange && e.booked ≤ 1875 && e.body.inRange) := by
  obtain ⟨_, _, _, _, _, _, body⟩ := e
  cases body <;> rfl

/-- A rule that gives an entry another body, and may clear its owed set: neither body is LEAVING, the new one is in range and no
longer delayed, and hushed only where the old one was and no order went. -/
theorem Entry.Rests.ofBody {e : Entry} {o : Owed} {b : Body} (hl : e.state ≠ .leaving)
    (hb : Entry.state { e with owed := o, body := b } ≠ .leaving) (ho : e.owed.drop = false → o.drop = false)
    (hr : e.body.inRange = true → b.inRange = true)
    (hh : Entry.hushed { e with owed := o, body := b } = true → e.hushed = true ∧ o.wake = e.owed.wake)
    (hd : ∀ target, e.delaysWithin target → Entry.delaysWithin target { e with owed := o, body := b }) :
    e.Rests { e with owed := o, body := b } where
  serial := rfl
  occupied := rfl
  contract := rfl
  booked := rfl
  range h := by
    rw [Entry.inRange_eq, Bool.and_eq_true] at h ⊢
    exact ⟨h.1, hr h.2⟩
  drops h := (Entry.dropAlone_of_ne (e := { e with owed := o, body := b }) hb).2 (ho ((Entry.dropAlone_of_ne hl).1 h))
  wakes _ hw h := (hh h).2.trans (hw (hh h).1)
  delays := hd

/-- The same with the owed set as it was. -/
theorem Entry.Rests.withBody {e : Entry} {b : Body} (hl : e.state ≠ .leaving) (hb : (e.withBody b).state ≠ .leaving)
    (hr : e.body.inRange = true → b.inRange = true) (hh : (e.withBody b).hushed = true → e.hushed = true)
    (hd : ∀ target, e.delaysWithin target → (e.withBody b).delaysWithin target) : e.Rests (e.withBody b) :=
  .ofBody (o := e.owed) hl hb id hr (fun h => ⟨hh h, rfl⟩) hd

theorem Entry.Rests.reEnrol {e e' : Entry} {n : Round} (h : e.reEnrol n = some e') : e.Rests e' := by
  obtain ⟨serial, occupied, k, booked, capped, owed, body⟩ := e
  cases body with
  | silent f =>
    obtain rfl : _ = e' := by simpa [Entry.reEnrol] using h
    exact .ofBody (e := ⟨serial, occupied, k, booked, capped, owed, .silent f⟩) nofun nofun (fun _ => rfl)
      (fun _ => rfl) nofun fun target hd => by simpa [Entry.delaysWithin, Entry.delay] using hd
  | _ => simp [Entry.reEnrol] at h

theorem Entry.Rests.failEnrolment {e e' : Entry} (h : e.failEnrolment = .toSilent e') (hh : e.hushed = false) :
    e.Rests e' := by
  obtain ⟨serial, occupied, k, booked, capped, owed, body⟩ := e
  cases body with
  | heard f =>
    obtain ⟨heardRound, tries, _ | d⟩ := f
    · simp [Entry.failEnrolment] at h
    · obtain rfl : _ = e' := by simpa [Entry.failEnrolment] using h
      exact .ofBody (e := ⟨serial, occupied, k, booked, capped, owed, .heard ⟨heardRound, tries, some d⟩⟩) nofun nofun
        (fun _ => rfl) (fun _ => rfl) nofun
        fun target hd => by simpa [Entry.delaysWithin, Entry.delay] using hd
  | timed f =>
    obtain ⟨d, _ | former, misses, hushed⟩ := f
    · simp [Entry.failEnrolment] at h
    · obtain rfl : _ = e' := by simpa [Entry.failEnrolment] using h
      obtain rfl : hushed = false := hh
      exact .ofBody (e := ⟨serial, occupied, k, booked, capped, owed, .timed ⟨d, some former, misses, false⟩⟩) nofun nofun
        (fun _ => rfl) (fun _ => rfl) nofun
        fun target hd => by simp [Entry.delaysWithin, Entry.delay] at hd ⊢; exact hd.2
  | _ => simp [Entry.failEnrolment] at h

theorem Entry.Rests.toActive {e e' : Entry} {need : Nat} {n : Round} (h : e.toActive need n = some e') (hn : need ≤ 65535) :
    e.Rests e' := by
  obtain ⟨serial, occupied, k, booked, capped, owed, body⟩ := e
  cases body with
  | timed f =>
    obtain rfl : _ = e' := by simpa [Entry.toActive] using h
    exact .withBody (e := ⟨serial, occupied, k, booked, capped, owed, .timed f⟩) nofun nofun
      (fun hr => by simp_all [Body.inRange]) id
      fun target hd => by simp [Entry.delaysWithin, Entry.delay, Entry.withBody] at hd ⊢; exact hd.1
  | _ => simp [Entry.toActive] at h

theorem Entry.Rests.toSilent {e e' : Entry} (h : e.toSilent = some e') : e.Rests e' := by
  obtain ⟨serial, occupied, k, booked, capped, owed, body⟩ := e
  cases body with
  | active f =>
    obtain rfl : _ = e' := by simpa [Entry.toSilent] using h
    exact .withBody (e := ⟨serial, occupied, k, booked, capped, owed, .active f⟩) nofun nofun
      (fun hr => by simp_all [Body.inRange]) id
      fun target hd => by simpa [Entry.delaysWithin, Entry.delay, Entry.withBody] using hd
  | _ => simp [Entry.toSilent] at h

theorem Entry.Rests.fenceActive (serial : Serial) (occupied : Round) (k : Contract) (booked : Nat) (capped : Bool) (owed : Owed)
    (f : Active) (trial : Bool) :
    Entry.Rests ⟨serial, occupied, k, booked, capped, owed, .active f⟩
      ⟨serial, occupied, k, booked, capped, owed, .fenced (f.fenced trial)⟩ :=
  .withBody (e := ⟨serial, occupied, k, booked, capped, owed, .active f⟩) nofun nofun
    (fun hr => by simp_all [Body.inRange, Active.fenced]) id
    fun target hd => by simpa [Entry.delaysWithin, Entry.delay, Entry.withBody, Active.fenced] using hd

theorem Entry.Rests.applyFence {e e' : Entry} (h : e.applyFence = some e') : e.Rests e' := by
  obtain ⟨serial, occupied, k, booked, capped, owed, body⟩ := e
  cases body with
  | timed f =>
    obtain rfl : _ = e' := by simpa [Entry.applyFence] using h
    refine Entry.Rests.trans ?_ (.owe _ nofun nofun)
    exact .withBody (e := ⟨serial, occupied, k, booked, capped, owed, .timed f⟩) nofun nofun
      (fun hr => by simp_all [Body.inRange]) id
      fun target hd => by simp [Entry.delaysWithin, Entry.delay, Entry.withBody] at hd ⊢; exact hd.1
  | active f =>
    obtain rfl : _ = e' := by simpa [Entry.applyFence] using h
    exact (Entry.Rests.fenceActive serial occupied k booked capped owed f false).trans (.owe _ nofun nofun)
  | silent f =>
    obtain rfl : _ = e' := by simpa [Entry.applyFence] using h
    refine Entry.Rests.trans ?_ (.owe _ nofun nofun)
    exact .withBody (e := ⟨serial, occupied, k, booked, capped, owed, .silent f⟩) nofun nofun
      (fun hr => by simp_all [Body.inRange]) id
      fun target hd => by simpa [Entry.delaysWithin, Entry.delay, Entry.withBody] using hd
  | fenced f =>
    obtain ⟨-, rfl⟩ : _ ∧ _ = e' := by simpa [Entry.applyFence] using h
    exact .owe _ nofun nofun
  | heard f => simp [Entry.applyFence] at h
  | leaving d => simp [Entry.applyFence] at h

theorem Entry.Rests.superviseFence {e e' : Entry} {trial : Bool} (h : e.superviseFence trial = some e') : e.Rests e' := by
  obtain ⟨serial, occupied, k, booked, capped, owed, body⟩ := e
  cases body with
  | active f =>
    obtain rfl : _ = e' := by simpa [Entry.superviseFence] using h
    exact (Entry.Rests.fenceActive serial occupied k booked capped owed f trial).trans (.owe _ nofun nofun)
  | _ => simp [Entry.superviseFence] at h

theorem Entry.Rests.releaseFence {e e' : Entry} {trial : Bool} (h : e.releaseFence trial = some e') : e.Rests e' := by
  obtain ⟨serial, occupied, k, booked, capped, owed, body⟩ := e
  cases body with
  | fenced f =>
    obtain ⟨-, rfl⟩ : _ ∧ _ = e' := by simpa [Entry.releaseFence] using h
    refine Entry.Rests.trans ?_ (.owe _ nofun nofun)
    exact .withBody (e := ⟨serial, occupied, k, booked, capped, owed, .fenced f⟩) nofun nofun
      (fun hr => by simp_all [Body.inRange]) id
      fun target hd => by simpa [Entry.delaysWithin, Entry.delay, Entry.withBody] using hd
  | _ => simp [Entry.releaseFence] at h

theorem Entry.Rests.confirmFence (e : Entry) : e.Rests e.confirmFence := by
  obtain ⟨serial, occupied, k, booked, capped, owed, body⟩ := e
  cases body with
  | fenced f =>
    exact .withBody (e := ⟨serial, occupied, k, booked, capped, owed, .fenced f⟩) nofun nofun
      (id) id
      fun target hd => by simpa [Entry.delaysWithin, Entry.delay, Entry.withBody] using hd
  | _ => exact .refl _

theorem Entry.Rests.toLeaving {e e' : Entry} (h : e.toLeaving = some e') : e.Rests e' := by
  obtain ⟨hl, rfl⟩ : e.state ≠ .leaving ∧ Entry.owe { e with body := .leaving e.delay } .drop = e' := by
    obtain ⟨serial, occupied, k, booked, capped, owed, body⟩ := e
    cases body with
    | leaving d => simp [Entry.toLeaving] at h
    | _ => exact ⟨nofun, by simpa [Entry.toLeaving] using h⟩
  refine ⟨⟨rfl, rfl, rfl, rfl, fun hd => ?_⟩, fun hr => ?_, fun _ _ => nofun, fun target hd => ⟨hd.1, trivial⟩⟩
  · refine (Entry.dropAlone_of_leaving rfl).2 ?_
    have := (Entry.dropAlone_of_ne hl).1 hd
    simp [Entry.owe, Owed.add, this]
  · rw [Entry.inRange_eq, Bool.and_eq_true] at hr ⊢
    exact ⟨hr.1, rfl⟩

theorem Entry.Rests.hear (e : Entry) {need : Nat} (hn : need ≤ 65535) : e.Rests (e.hear need) := by
  obtain ⟨serial, occupied, k, booked, capped, owed, body⟩ := e
  cases body with
  | active f =>
    exact .withBody (e := ⟨serial, occupied, k, booked, capped, owed, .active f⟩) nofun nofun
      (fun hr => by simp_all [Body.inRange]) id
      fun target hd => by simpa [Entry.delaysWithin, Entry.delay, Entry.withBody] using hd
  | fenced f =>
    exact .withBody (e := ⟨serial, occupied, k, booked, capped, owed, .fenced f⟩) nofun nofun
      (fun hr => by simp_all [Body.inRange]) id
      fun target hd => by simpa [Entry.delaysWithin, Entry.delay, Entry.withBody] using hd
  | _ => exact .refl _

theorem addOutcome_length (history : List Bool) (b : Bool) (h : history.length ≤ 8) : (addOutcome history b).length ≤ 8 := by
  simp only [addOutcome, List.length_drop, List.length_append, List.length_singleton]
  omega

theorem Entry.Rests.addOutcome (e : Entry) (b : Bool) : e.Rests (e.addOutcome b) := by
  obtain ⟨serial, occupied, k, booked, capped, owed, body⟩ := e
  cases body with
  | active f =>
    exact .withBody (e := ⟨serial, occupied, k, booked, capped, owed, .active f⟩) nofun nofun
      (fun hr => by
        simp only [Body.inRange, Bool.and_eq_true, decide_eq_true_eq] at hr ⊢
        exact ⟨hr.1, addOutcome_length _ _ hr.2⟩) id
      fun target hd => by simpa [Entry.delaysWithin, Entry.delay, Entry.withBody] using hd
  | fenced f =>
    exact .withBody (e := ⟨serial, occupied, k, booked, capped, owed, .fenced f⟩) nofun nofun
      (fun hr => by
        simp only [Body.inRange, Bool.and_eq_true, decide_eq_true_eq] at hr ⊢
        exact ⟨hr.1, addOutcome_length _ _ hr.2⟩) id
      fun target hd => by simpa [Entry.delaysWithin, Entry.delay, Entry.withBody] using hd
  | _ => exact .refl _

theorem Entry.Rests.capped (e : Entry) (b : Bool) : e.Rests { e with capped := b } :=
  ⟨⟨rfl, rfl, rfl, rfl, id⟩, id, fun _ => id, fun _ => id⟩

theorem Entry.Rests.stopped {e e' : Entry} (h : e.stopped = some e') : e.Rests e' ∧ e'.hushed = false := by
  obtain ⟨serial, occupied, k, booked, capped, owed, body⟩ := e
  cases body with
  | heard f =>
    obtain ⟨heardRound, tries, _ | d⟩ := f
    · simp [Entry.stopped] at h
    · obtain rfl : _ = e' := by simpa [Entry.stopped] using h
      refine ⟨?_, rfl⟩
      exact .ofBody (e := ⟨serial, occupied, k, booked, capped, owed, .heard ⟨heardRound, tries, some d⟩⟩) nofun nofun
        (fun _ => rfl) (fun _ => rfl) nofun
        fun target hd => by simpa [Entry.delaysWithin, Entry.delay] using hd
  | timed f =>
    obtain ⟨d, _ | former, misses, hushed⟩ := f
    · simp [Entry.stopped] at h
    · obtain rfl : _ = e' := by simpa [Entry.stopped] using h
      refine ⟨?_, rfl⟩
      exact .ofBody (e := ⟨serial, occupied, k, booked, capped, owed, .timed ⟨d, some former, misses, hushed⟩⟩) nofun nofun
        (fun _ => rfl) (fun _ => rfl) nofun
        fun target hd => by simp [Entry.delaysWithin, Entry.delay] at hd ⊢; exact hd.2
  | active f =>
    obtain rfl : _ = e' := by simpa [Entry.stopped] using h
    refine ⟨?_, rfl⟩
    exact .ofBody (e := ⟨serial, occupied, k, booked, capped, owed, .active f⟩) nofun nofun (fun _ => rfl)
      (fun _ => rfl) nofun
      fun target hd => by simpa [Entry.delaysWithin, Entry.delay] using hd
  | silent f =>
    obtain rfl : _ = e' := by simpa [Entry.stopped] using h
    refine ⟨?_, rfl⟩
    exact .ofBody (e := ⟨serial, occupied, k, booked, capped, owed, .silent f⟩) nofun nofun (fun _ => rfl)
      (fun _ => rfl) nofun
      fun target hd => by simpa [Entry.delaysWithin, Entry.delay] using hd
  | fenced f =>
    cases ht : f.trial
    · obtain rfl : _ = e' := by simpa [Entry.stopped, ht] using h
      refine ⟨?_, rfl⟩
      exact .ofBody (e := ⟨serial, occupied, k, booked, capped, owed, .fenced f⟩) nofun nofun (fun _ => rfl)
        (fun _ => rfl) nofun
        fun target hd => by simpa [Entry.delaysWithin, Entry.delay] using hd
    · obtain rfl : _ = e' := by simpa [Entry.stopped, ht] using h
      refine ⟨?_, rfl⟩
      exact .ofBody (e := ⟨serial, occupied, k, booked, capped, owed, .fenced f⟩) nofun nofun (fun _ => rfl)
        (fun _ => rfl) nofun
        fun target hd => by simpa [Entry.delaysWithin, Entry.delay] using hd
  | leaving d => simp [Entry.stopped] at h

theorem Entry.clampDelay_delaysWithin (target : Nat) (e : Entry) : (e.clampDelay target).delaysWithin target := by
  obtain ⟨serial, occupied, k, booked, capped, owed, body⟩ := e
  cases body with
  | heard f => simp [Entry.clampDelay, Entry.delaysWithin, Entry.delay]
  | timed f => simp [Entry.clampDelay, Entry.delaysWithin, Entry.delay]
  | active f => simp [Entry.clampDelay, Entry.delaysWithin, Entry.delay]
  | silent f => simp [Entry.clampDelay, Entry.delaysWithin, Entry.delay]
  | fenced f => simp [Entry.clampDelay, Entry.delaysWithin, Entry.delay]
  | leaving d => simp [Entry.clampDelay, Entry.delaysWithin, Entry.delay]

theorem Entry.Rests.clampDelay (target : Nat) (e : Entry) : e.Rests (e.clampDelay target) := by
  obtain ⟨serial, occupied, k, booked, capped, owed, body⟩ := e
  cases body with
  | leaving d =>
    refine ⟨⟨rfl, rfl, rfl, rfl, id⟩, id, fun _ => id, fun bound h => ⟨fun x hx => ?_, trivial⟩⟩
    obtain ⟨y, hy, rfl⟩ := Option.map_eq_some_iff.1 hx
    exact (Nat.min_le_right _ _).trans (h.1 y hy)
  | heard f =>
    refine ⟨⟨rfl, rfl, rfl, rfl, id⟩, id, fun _ => id, fun bound h => ⟨fun x hx => ?_, trivial⟩⟩
    obtain ⟨y, hy, rfl⟩ := Option.map_eq_some_iff.1 hx
    exact (Nat.min_le_right _ _).trans (h.1 y hy)
  | timed f =>
    refine ⟨⟨rfl, rfl, rfl, rfl, id⟩, id, fun _ => id, fun bound h => ⟨?_, fun x hx => ?_⟩⟩
    · rintro x ⟨⟩
      exact (Nat.min_le_right _ _).trans (h.1 f.e rfl)
    · obtain ⟨y, hy, rfl⟩ := Option.map_eq_some_iff.1 hx
      exact (Nat.min_le_right _ _).trans (h.2 y hy)
  | active f =>
    refine ⟨⟨rfl, rfl, rfl, rfl, id⟩, id, fun _ => id, fun bound h => ⟨?_, trivial⟩⟩
    rintro x ⟨⟩
    exact (Nat.min_le_right _ _).trans (h.1 f.e rfl)
  | silent f =>
    refine ⟨⟨rfl, rfl, rfl, rfl, id⟩, id, fun _ => id, fun bound h => ⟨?_, trivial⟩⟩
    rintro x ⟨⟩
    exact (Nat.min_le_right _ _).trans (h.1 f.e rfl)
  | fenced f =>
    refine ⟨⟨rfl, rfl, rfl, rfl, id⟩, id, fun _ => id, fun bound h => ⟨?_, trivial⟩⟩
    rintro x ⟨⟩
    exact (Nat.min_le_right _ _).trans (h.1 f.e rfl)

/-! ## Moves of the roster -/

theorem EntryStep.refl (k : Nat) (e : Entry) : EntryStep s k e e := (Entry.Rests.refl e).step k

theorem State.entry_of_mem (hw : Store.Wf s.roster) {t : TreeId} {tag : Nat} {x : Nat × Entry} (hx : x ∈ s.roster)
    (hk : x.1 = slotOf t tag) : s.entry t tag = some x.2 := by
  rw [State.entry, ← hk]
  exact Store.read_of_mem hw hx

theorem Moves.modEntry {t : TreeId} {tag : Nat} {f : Entry → Entry}
    (h : ∀ e, s.entry t tag = some e → EntryStep s (slotOf t tag) e (f e)) : Moves R s (s.modEntry t tag f) :=
  (Move.roster s _ fun hw => .map _ _ fun x hx => by
    by_cases hk : x.1 = slotOf t tag
    · simp only [if_pos hk]
      exact ⟨trivial, hk ▸ h x.2 (State.entry_of_mem hw hx hk)⟩
    · simp only [if_neg hk]
      exact ⟨trivial, .refl _ _⟩).moves

theorem Moves.setEntry {t : TreeId} {tag : Nat} {e e' : Entry} (he : s.entry t tag = some e)
    (h : EntryStep s (slotOf t tag) e e') : Moves R s (s.setEntry t tag e') :=
  (Move.roster s _ fun hw => by
    rw [Store.write_eq_modify hw he]
    refine .map _ _ fun x hx => ?_
    by_cases hk : x.1 = slotOf t tag
    · obtain rfl : e = x.2 := by
        rw [State.entry_of_mem hw hx hk] at he
        exact (Option.some.inj he).symm
      simp only [if_pos hk]
      exact ⟨trivial, hk ▸ h⟩
    · simp only [if_neg hk]
      exact ⟨trivial, .refl _ _⟩).moves

theorem Moves.modTreeEntries {t : TreeId} {f : Nat → Entry → Entry}
    (h : ∀ k e, slotTree k = t.val → EntryStep s k e (f (slotTag k) e)) : Moves R s (s.modTreeEntries t f) :=
  (Move.roster s _ fun _ => .map _ _ fun x _ => by
    by_cases hk : slotTree x.1 = t.val
    · simp only [if_pos hk]
      exact ⟨trivial, h _ _ hk⟩
    · simp only [if_neg hk]
      exact ⟨trivial, .refl _ _⟩).moves

/-- Entries that go, and entries that a rule leaves in their slots. -/
theorem Moves.keepEntries (g : Nat × Entry → Option (Nat × Entry))
    (h : ∀ x y, g x = some y → y.1 = x.1 ∧ x.2.Rests y.2) : Moves R s { s with roster := s.roster.filterMap g } :=
  (Move.roster s _ fun _ => .filterMap _ _ fun x _ y hy => ⟨(h x y hy).1, (h x y hy).2.step _⟩).moves

theorem Moves.filterWatches (f : Nat × Watch → Bool) : Moves R s { s with watches := s.watches.filter f } :=
  (Move.watches s _ (Store.wf_filter f _) fun h x hx => h x (List.mem_of_mem_filter hx)).moves

theorem Moves.vacate (t : TreeId) (tag : Nat) : Moves R s (s.vacate t tag) := by
  have hroster : Moves R s { s with roster := Store.erase (slotOf t tag) s.roster } := by
    rw [Store.erase, ← List.filterMap_eq_filter]
    refine .keepEntries _ fun x y hy => ?_
    obtain rfl : x = y := by
      simp only [Option.guard] at hy
      split at hy <;> simp_all
    exact ⟨rfl, .refl _⟩
  exact hroster.then (.filterWatches _)

/-! ## Moves of ports -/

theorem Moves.modPort {p : Port} {f : PortState → PortState} (h : (s.port p).Keeps (f (s.port p))) :
    Moves R s (s.modPort p f) := (Move.port s p _ h).moves

theorem Moves.raiseAt (p : Port) (k : Option TreeId) (d : Detail) : Moves R s (s.raiseAt p k d) :=
  .modPort
    { inProgress := rfl
      allocation := rfl
      waiting := id
      line := fun _ => rfl
      keys := fun h => by
        simp only [PortState.judgeLine, noticesAfter_keys]
        split
        · exact h
        · rename_i hn
          exact List.nodup_append.2 ⟨h, by simp, by
            rintro a ha b hb rfl
            rw [List.mem_singleton.1 hb] at ha
            exact hn ha⟩ }

theorem Moves.raise (t : TreeId) (d : Detail) : Moves R s (s.raise t d) := .raiseAt _ _ _

theorem Moves.raiseKeyless (d : Detail) : Moves R s (s.raiseKeyless d) := .raiseAt _ _ _

/-- A change of a port that leaves its slots, its allocation, its threshold and its notices with their line. -/
theorem Moves.modPort_rest {p : Port} {f : PortState → PortState} (hi : (f (s.port p)).inProgress = (s.port p).inProgress)
    (hw : (f (s.port p)).waiting = (s.port p).waiting) (ha : (f (s.port p)).allocation = (s.port p).allocation)
    (ht : (f (s.port p)).threshold = (s.port p).threshold) (hn : (f (s.port p)).notices = (s.port p).notices)
    (hl : (f (s.port p)).line = (s.port p).line) : Moves R s (s.modPort p f) :=
  .modPort ⟨hi, ha, by rw [hi, hw]; exact id, by rw [hl, ht, hn]; exact id, by rw [hn]; exact id⟩

theorem Moves.reply (p : Port) (q : Byte) (a : Status) (r : Results) : Moves R s (s.reply p q a r) :=
  .modPort_rest rfl rfl rfl rfl rfl rfl

theorem Moves.refuse (p : Port) (q : Byte) (a : Status) : Moves R s (s.refuse p q a) := .reply p q a .nothing

/-! ## Moves of meters, watches, journal -/

theorem Moves.meters (m : Store Meters) (hw : Store.Wf s.meters → Store.Wf m)
    (hr : (∀ x ∈ s.meters, x.2.inRange = true) → ∀ x ∈ m, x.2.inRange = true) : Moves R s { s with meters := m } :=
  (Move.meters s m hw hr).moves

theorem Moves.mapMeters (g : Nat × Meters → Nat × Meters)
    (h : ∀ x, (g x).1 = x.1 ∧ (x.2.inRange = true → (g x).2.inRange = true)) :
    Moves R s { s with meters := s.meters.map g } :=
  .meters _ (Store.wf_map g (fun x => (h x).1) _) fun hr y hy => by
    obtain ⟨x, hx, rfl⟩ := List.mem_map.1 hy
    exact (h x).2 (hr x hx)

theorem Moves.modMeters (t : TreeId) (tag : Nat) (f : Meters → Meters) (h : ∀ m, m.inRange = true → (f m).inRange = true) :
    Moves R s (s.modMeters t tag f) :=
  .mapMeters _ fun x => by
    by_cases hk : x.1 = slotOf t tag
    · simp only [if_pos hk]
      exact ⟨trivial, h _⟩
    · simp only [if_neg hk]
      exact ⟨trivial, id⟩

theorem Moves.mapWatches (g : Nat × Watch → Nat × Watch) (h : ∀ x, (g x).1 = x.1) :
    Moves R s { s with watches := s.watches.map g } :=
  (Move.watches s _ (Store.wf_map g h _) fun hk y hy => by
    obtain ⟨x, hx, rfl⟩ := List.mem_map.1 hy
    rw [h]
    exact hk x hx).moves

/-! ## Moves of trees -/

theorem Moves.modTree {t : TreeId} {f : Tree → Tree} (h : TreeStep s t (f (s.tree t))) : Moves R s (s.modTree t f) :=
  (Move.tree s t _ h).moves

/-- The registers of a tree in their ranges, block by block. -/
theorem Tree.inRange_iff (x : Tree) :
    x.inRange = true ↔ (x.settings.inRange = true ∧ x.settlingCount ≤ 16 ∧ (1 ≤ x.lead ∧ x.lead ≤ 128) ∧
      (16 ≤ x.bookedCall ∧ x.bookedCall ≤ 1600) ∧ 4 ≤ x.bookedDark ∧ x.bookedDark ≤ 64) ∧
      (x.engine.count ≤ 1023 ∧ x.engine.collisions ≤ maxCount) ∧ x.light.inRange = true := by
  simp only [Tree.inRange, Bool.and_eq_true, decide_eq_true_eq]
  tauto

theorem TreeStep.refl (t : TreeId) : TreeStep s t (s.tree t) :=
  ⟨fun _ => id, .refl _, .refl _, id, id, fun _ _ h h' => absurd h h', fun _ _ => id, id, fun h => h.2.1 t⟩

/-- A change of the light supervisor of a tree. -/
theorem TreeStep.light {t : TreeId} {l : Light} (hr : Store.Wf s.roster → (s.tree t).inRange = true → l.inRange = true)
    (hs : (s.tree t).SuspicionOk → (s.tree t).phase ≠ .running → l.suspicion = .clear)
    (hw : DropsAlone s → SuspicionHeld s → (s.tree t).InHunt → (∀ h, l.suspicion ≠ .hunt h) →
      ∀ y ∈ s.treeEntries t, y.2.WakeOwed) :
    TreeStep s t { s.tree t with light := l } :=
  { TreeStep.refl t with
    range := fun hros h => (Tree.inRange_iff _).2 ⟨((Tree.inRange_iff _).1 h).1, ((Tree.inRange_iff _).1 h).2.1, hr hros h⟩
    suspicion := hs
    wakes := fun hd hsus hin hout => hw hd hsus hin fun h hl => hout ⟨h, hl⟩ }

/-- A change of the light supervisor that leaves the suspicion state. -/
theorem TreeStep.light_rest {t : TreeId} {l : Light} (hr : Store.Wf s.roster → (s.tree t).inRange = true → l.inRange = true)
    (hs : l.suspicion = (s.tree t).light.suspicion) : TreeStep s t { s.tree t with light := l } :=
  .light hr (fun h hp => hs.trans (h hp)) fun _ _ ⟨h, hh⟩ hn => absurd (hs.trans hh) (hn h)

/-- A change of the enrolment engine of a tree. -/
theorem TreeStep.engine {t : TreeId} {g : Engine}
    (hr : (s.tree t).inRange = true → g.count ≤ 1023 ∧ g.collisions ≤ maxCount)
    (hw : g.windows.Sublist (s.tree t).engine.windows)
    (hc : (s.tree t).TagsOk → ∀ tag, g.chosen = some (.window (.probe tag)) → tagOk tag = true)
    (hb : (s.tree t).TagsOk → ∀ b ∈ g.bookedProbe, tagOk b.2 = true) : TreeStep s t { s.tree t with engine := g } :=
  { TreeStep.refl t with
    range := fun _ h => (Tree.inRange_iff _).2 ⟨((Tree.inRange_iff _).1 h).1, hr h, ((Tree.inRange_iff _).1 h).2.2⟩
    windows := hw
    tags := fun h => ⟨h.1, h.2.1, fun w hm => h.2.2.1 w (hw.subset hm), hc h, hb h⟩ }

/-- A change of the upstream checker of a tree. -/
theorem TreeStep.checker {t : TreeId} {k : Checker}
    (h : (∀ c ∈ (s.tree t).checker.carried, tagOk c.grant.tag = true) → ∀ c ∈ k.carried, tagOk c.grant.tag = true) :
    TreeStep s t { s.tree t with checker := k } :=
  { TreeStep.refl t with
    tags := fun ⟨hplans, hcarried, hrest⟩ => ⟨hplans, h hcarried, hrest⟩ }

/-- A change of the framer of a tree. -/
theorem TreeStep.framer {t : TreeId} {f : Framer}
    (h : BuffersWithin s → downBytes f.buffer ≤ bufferBytes ∧ ∀ p ∈ f.buffer, p.fits = true) :
    TreeStep s t { s.tree t with framer := f } :=
  { TreeStep.refl t with buffer := h }

end Sys2Proof.Machine
end

section
/-! PROOFS. The moves of the light supervisor: the hunt and its steps, suspicion, overrun fencing (chapter 8). -/

namespace Sys2Proof.Machine

variable {R : Prop} {s : State} {t : TreeId}

/-! ## Tags in ascending order -/

theorem tagOk_slotTag (k : Nat) : tagOk (slotTag k) = true := by
  rw [tagOk_eq_true_iff, slotTag]
  omega

theorem tagsAscending_iff (tags : List Nat) :
    tagsAscending tags = true ↔ (∀ x ∈ tags, tagOk x = true) ∧ tags.Pairwise (· < ·) := by
  simp [tagsAscending]

theorem tagsAscending_sublist {l l' : List Nat} (h : l'.Sublist l) (ha : tagsAscending l = true) :
    tagsAscending l' = true := by
  rw [tagsAscending_iff] at ha ⊢
  exact ⟨fun x hx => ha.1 x (h.subset hx), ha.2.sublist h⟩

/-- An entry of a tree is an entry of the roster in a slot of the tree (R17). -/
theorem State.mem_treeEntries {y : Nat × Entry} :
    y ∈ s.treeEntries t ↔ ∃ k, (k, y.2) ∈ s.roster ∧ slotTree k = t.val ∧ slotTag k = y.1 := by
  obtain ⟨tag, e⟩ := y
  simp only [State.treeEntries, List.mem_filterMap, Prod.exists]
  constructor
  · rintro ⟨k, e', hm, hx⟩
    split at hx
    · rename_i hk
      cases hx
      exact ⟨k, hm, hk, rfl⟩
    · cases hx
  · rintro ⟨k, hm, hk, ht⟩
    exact ⟨k, e, hm, by rw [if_pos hk, ht]⟩

/-- The entries of a tree stand in ascending tag, one a tag. -/
theorem State.treeEntries_pairwise (hw : Store.Wf s.roster) (t : TreeId) :
    (s.treeEntries t).Pairwise fun a b => a.1 < b.1 := by
  refine hw.filterMap _ fun a b hab x hx y hy => ?_
  split at hx
  · split at hy
    · cases hx
      cases hy
      simp only [slotTag, slotTree] at *
      omega
    · cases hy
  · cases hx

/-- Any tags picked from the entries of a tree are ascending. -/
theorem State.pickedTags_ascending (hw : Store.Wf s.roster) (t : TreeId) (f : Nat × Entry → Bool) :
    tagsAscending ((s.treeEntries t).filterMap fun x => if f x then some x.1 else none) = true := by
  rw [tagsAscending_iff]
  constructor
  · intro x hx
    obtain ⟨y, hy, he⟩ := List.mem_filterMap.1 hx
    obtain ⟨k, -, -, hk⟩ := State.mem_treeEntries.1 hy
    split at he
    · cases he
      rw [← hk]
      exact tagOk_slotTag k
    · cases he
  · refine (State.treeEntries_pairwise hw t).filterMap _ fun a b hab x hx y hy => ?_
    split at hx
    · split at hy
      · cases hx
        cases hy
        exact hab
      · cases hy
    · cases hx

theorem State.activeTags_ascending (hw : Store.Wf s.roster) (t : TreeId) : tagsAscending (s.activeTags t) = true := by
  have := State.pickedTags_ascending hw t fun x => x.2.state = .active
  simpa [State.activeTags] using this

/-- A map that keeps keys leaves a store in the form it has. -/
theorem Store.wf_of_map {α : Type} {f : Nat × α → Nat × α} (hf : ∀ x, (f x).1 = x.1) {st : Store α} (h : Store.Wf (st.map f)) :
    Store.Wf st := by
  refine (List.pairwise_map.1 h).imp fun {a b} hab => ?_
  rwa [hf, hf] at hab

theorem State.wf_of_modTreeEntries {f : Nat → Entry → Entry} (h : Store.Wf (s.modTreeEntries t f).roster) :
    Store.Wf s.roster := Store.wf_of_map (fun x => by split <;> rfl) h

theorem State.wf_of_modEntry {tag : Nat} {f : Entry → Entry} (h : Store.Wf (s.modEntry t tag f).roster) :
    Store.Wf s.roster := Store.wf_of_map (fun x => by split <;> rfl) h

/-! ## Light supervisors -/

/-- The registers of a light supervisor in their ranges, with those of its hunt (R123). -/
theorem Light.inRange_iff (l : Light) :
    l.inRange = true ↔ (l.baseline ≤ 4095 ∧ l.limitValue ≤ 255 ∧
      (l.limitScale = 1 ∨ l.limitScale = 4 ∨ l.limitScale = 16 ∨ l.limitScale = 64)) ∧
      ((1 ≤ l.m ∧ l.m ≤ 8) ∧ (1 ≤ l.v ∧ l.v ≤ 4) ∧ 1 ≤ l.mOver ∧ l.mOver ≤ 8) ∧ l.observations.length ≤ 8 ∧
      l.cadence ≤ 255 ∧ l.strays ≤ maxCount ∧ ∀ h, l.suspicion = .hunt h → h.inRange = true := by
  unfold Light.inRange
  cases l.suspicion <;> simp only [Bool.and_eq_true, Bool.or_eq_true, decide_eq_true_eq, Suspicion.hunt.injEq,
    reduceCtorEq, false_implies, implies_true, forall_eq'] <;> tauto

theorem Tree.light_inRange {x : Tree} (h : x.inRange = true) : x.light.inRange = true := ((Tree.inRange_iff x).1 h).2.2

theorem State.hunting_iff : s.hunting t = true ↔ (s.tree t).InHunt := by
  unfold State.hunting State.huntOf Tree.InHunt
  split
  · rename_i h hs
    simp [hs]
  · rename_i hs
    simpa using hs

theorem State.huntOf_eq_some {h : Hunt} : s.huntOf t = some h ↔ (s.tree t).light.suspicion = .hunt h := by
  unfold State.huntOf
  split
  · rename_i h' hs
    simp [hs]
  · rename_i hs
    simpa using hs h

theorem State.hunting_of_suspicion {h : Hunt} (hs : (s.tree t).light.suspicion = .hunt h) : s.hunting t = true :=
  State.hunting_iff.2 ⟨h, hs⟩

/-- A hunt runs on a RUNNING tree alone (R1). -/
theorem State.running_of_hunting (h : s.hunting t = true) (hs : (s.tree t).SuspicionOk) : (s.tree t).phase = .running := by
  obtain ⟨x, hx⟩ := State.hunting_iff.1 h
  by_contra hn
  rw [hs hn] at hx
  cases hx

theorem Hunt.inRange_iff (h : Hunt) :
    h.inRange = true ↔ tagsAscending h.suspects = true ∧ h.suspects ≠ [] ∧ h.darkRun ≤ 4 ∧ h.steps ≤ 255 ∧
      match h.phase with
      | .search group => tagsAscending group = true
      | .trial c => tagOk c = true
      | .allQuiet c quiet => tagOk c = true ∧ tagsAscending quiet = true := by
  unfold Hunt.inRange
  cases h.phase <;> simp only [Bool.and_eq_true, decide_eq_true_eq, Bool.not_eq_true', List.isEmpty_eq_false_iff, ne_eq,
    and_assoc]

/-- The hunt of a tree whose registers are in range. -/
theorem Tree.hunt_inRange {x : Tree} {h : Hunt} (hx : x.inRange = true) (hs : x.light.suspicion = .hunt h) :
    h.inRange = true := ((Light.inRange_iff _).1 (Tree.light_inRange hx)).2.2.2.2.2 h hs

theorem Light.inRange_setHunt {l : Light} {h : Hunt} (hl : l.inRange = true) (hh : h.inRange = true) :
    { l with suspicion := .hunt h }.inRange = true := by
  obtain ⟨hbase, hset, hobs, hcad, hstr, -⟩ := (Light.inRange_iff l).1 hl
  exact (Light.inRange_iff _).2 ⟨hbase, hset, hobs, hcad, hstr, fun h' e => by cases e; exact hh⟩

/-! ## A hunt ends -/

theorem Moves.modLight {f : Light → Light}
    (hr : Store.Wf s.roster → (s.tree t).inRange = true → (f (s.tree t).light).inRange = true)
    (hs : (s.tree t).SuspicionOk → (s.tree t).phase ≠ .running → (f (s.tree t).light).suspicion = .clear)
    (hw : DropsAlone s → SuspicionHeld s → (s.tree t).InHunt → (∀ h, (f (s.tree t).light).suspicion ≠ .hunt h) →
      ∀ y ∈ s.treeEntries t, y.2.WakeOwed) : Moves R s (s.modLight t f) :=
  .modTree (.light hr hs hw)

theorem Moves.modLight_rest {f : Light → Light}
    (hr : Store.Wf s.roster → (s.tree t).inRange = true → (f (s.tree t).light).inRange = true)
    (hs : (f (s.tree t).light).suspicion = (s.tree t).light.suspicion) : Moves R s (s.modLight t f) :=
  .modTree (.light_rest hr hs)

theorem Moves.wakeSome (f : Nat → Entry → Bool) :
    Moves R s (s.modTreeEntries t fun tag e => if f tag e then e.wake else e) :=
  .modTreeEntries fun k e _ => by
    split
    · exact (Entry.Rests.wake e).step k
    · exact .refl k e

theorem Moves.wakeAll : Moves R s (s.modTreeEntries t fun _ e => e.wake) :=
  .modTreeEntries fun k e _ => (Entry.Rests.wake e).step k

/-- A woken entry that is still hushed owes a WAKE. -/
theorem Entry.wake_wakeOwed {e : Entry} (hd : e.wake.DropAlone) : e.wake.WakeOwed := by
  intro hh
  have hbody : e.wake.hushed = e.hushed := by
    unfold Entry.hushed
    rw [Entry.wake_body]
  rw [hbody] at hh
  have hstate : e.state ≠ .leaving := by
    obtain ⟨serial, occupied, k, booked, capped, owed, body⟩ := e
    cases body with
    | leaving d => exact absurd hh Bool.false_ne_true
    | _ => nofun
  unfold Entry.wake at hd ⊢
  rw [if_pos hh] at hd ⊢
  have hdrop : (e.owed.add .wake).drop = false := (Entry.dropAlone_of_ne (e := e.owe .wake) hstate).1 hd
  rw [Owed.add_drop (k := .wake) nofun] at hdrop
  simp [Entry.owe, Owed.add, hdrop]

/-- Where every entry of a tree was woken, each that is hushed owes a WAKE. -/
theorem State.wakeOwed_of_wakeAll (hd : DropsAlone (s.modTreeEntries t fun _ e => e.wake)) :
    ∀ y ∈ (s.modTreeEntries t fun _ e => e.wake).treeEntries t, y.2.WakeOwed := by
  intro y hy
  obtain ⟨k, hm, hk, -⟩ := State.mem_treeEntries.1 hy
  obtain ⟨x, -, hx⟩ := List.mem_map.1 hm
  have hk' : slotTree x.1 = t.val := by
    have := congrArg Prod.fst hx
    split at this <;> (rw [show x.1 = k from this]; exact hk)
  rw [if_pos hk'] at hx
  obtain ⟨-, he⟩ := Prod.mk.inj hx
  have hdrop : y.2.DropAlone := hd (k, y.2) hm
  rw [← he] at hdrop ⊢
  exact Entry.wake_wakeOwed hdrop

/-- A hunt ends on a tree that is RUNNING (R140). -/
theorem Moves.endHunt (hp : (s.tree t).SuspicionOk → (s.tree t).phase = .running) (reason : HuntReason) (c : Option Nat) :
    Moves R s (s.endHunt t reason c) := by
  refine Moves.wakeAll.then (.modLight (fun _ h => ?_) (fun h hn => absurd (hp h) hn) fun hd _ _ _ =>
    State.wakeOwed_of_wakeAll hd)
  obtain ⟨hbase, hset, -, hcad, hstr, -⟩ := (Light.inRange_iff _).1 (Tree.light_inRange h)
  exact (Light.inRange_iff _).2 ⟨hbase, hset, Nat.zero_le _, hcad, hstr, fun h' e => by cases reason <;> cases e⟩

theorem Moves.unresolved (hp : s.hunting t = true) (h : Hunt) (reason : HuntReason) (c : Option Nat) :
    Moves R s (s.unresolved t h reason c) :=
  (Moves.raise t _).then (.endHunt (s := s.raise t _) (State.running_of_hunting (s := s.raise t _) hp) reason c)

/-! ## The steps of a hunt -/

/-- The hunt record is replaced by one in its ranges. -/
theorem Moves.setHunt (hin : s.hunting t = true) {h : Hunt}
    (hr : Store.Wf s.roster → (s.tree t).inRange = true → h.inRange = true) : Moves R s (s.setHunt t h) :=
  .modLight (fun hros hx => Light.inRange_setHunt (Tree.light_inRange hx) (hr hros hx))
    (fun hs hn => absurd (State.running_of_hunting hin hs) hn) fun _ _ _ hn => absurd rfl (hn h)

theorem Moves.modEntryOpt {tag : Nat} {f : Entry → Option Entry} (h : ∀ e e', f e = some e' → e.Rests e') :
    Moves R s (s.modEntry t tag fun e => (f e).getD e) :=
  .modEntry fun e _ => by
    cases hf : f e with
    | none => exact .refl _ _
    | some e' => exact (h e e' hf).step _

theorem Moves.superviseFence (tag : Nat) (trial : Bool) :
    Moves R s (s.modEntry t tag fun e => (e.superviseFence trial).getD e) :=
  .modEntryOpt fun _ _ => Entry.Rests.superviseFence

theorem Moves.releaseCandidate (c : Nat) : Moves R s (s.releaseCandidate t c) :=
  .modEntryOpt fun _ _ => Entry.Rests.releaseFence

theorem Moves.beginTrial (hin : s.hunting t = true) {h : Hunt} {c : Nat}
    (hr : Store.Wf s.roster → (s.tree t).inRange = true → tagOk c = true ∧ h.steps ≤ 255) : Moves R s (s.beginTrial t h c) := by
  show Moves R s (((s.modTreeEntries t fun _ e => e.wake).modEntry t c fun e => (e.superviseFence true).getD e).setHunt t _)
  refine Moves.wakeAll.then ((Moves.superviseFence c true).then (.setHunt ?_ fun hw hx => ?_))
  · exact hin
  obtain ⟨hc, hs⟩ := hr (State.wf_of_modTreeEntries (State.wf_of_modEntry hw)) hx
  simp [Hunt.inRange_iff, tagsAscending_iff, hc, hs]

theorem firstHalf_sublist (list : List Nat) : (firstHalf list).Sublist list := List.take_sublist _ _

/-- In a hunt entries may be hushed and woken (R132, R136). -/
theorem Moves.hushSome (hin : s.hunting t = true) {f : Nat → Entry → Entry}
    (h : ∀ tag e, f tag e = e ∨ f tag e = e.hush ∨ f tag e = e.wake) : Moves R s (s.modTreeEntries t f) :=
  .modTreeEntries fun k e hk => by
    obtain hf | hf | hf := h (slotTag k) e <;> rw [hf]
    · exact .refl k e
    · refine .hush e fun t' ht => ?_
      obtain rfl : t' = t := Fin.ext (ht.trans hk)
      exact hin
    · exact (Entry.Rests.wake e).step k

theorem Moves.searchStep (hin : s.hunting t = true) {h : Hunt} {list : List Nat} (hl : list ≠ [])
    (hr : Store.Wf s.roster → (s.tree t).inRange = true → tagsAscending list = true ∧ h.steps ≤ 255) :
    Moves R s (s.searchStep t h list) := by
  refine (Moves.hushSome hin fun tag e => ?_).then (.setHunt (s := s.modTreeEntries t _) hin fun hw hx => ?_)
  · split
    · exact .inr (.inl rfl)
    · split
      · exact .inr (.inr rfl)
      · exact .inl rfl
  · obtain ⟨ha, hs⟩ := hr (State.wf_of_modTreeEntries hw) hx
    simp [Hunt.inRange_iff, ha, hs, hl, tagsAscending_sublist (firstHalf_sublist list) ha]

theorem Moves.formStep (hin : s.hunting t = true) {h : Hunt} {list : List Nat}
    (hr : Store.Wf s.roster → (s.tree t).inRange = true → tagsAscending list = true ∧ h.steps ≤ 255) :
    Moves R s (s.formStep t h list) := by
  match list, hr with
  | [], _ => exact .unresolved hin h .empty none
  | [c], hr => exact .beginTrial hin fun hw hx => ⟨((tagsAscending_iff _).1 (hr hw hx).1).1 c (by simp), (hr hw hx).2⟩
  | a :: b :: rest, hr => exact .searchStep hin nofun hr

/-- The hunt record a hunt begins with (R131). -/
def State.firstHunt (s : State) (t : TreeId) : Hunt :=
  { phase := .search [], suspects := s.activeTags t, effective := none, darkRun := 0, steps := 0, started := s.round }

theorem State.beginHunt_of_suspects (h : s.activeTags t ≠ []) :
    s.beginHunt t =
      (s.modLight t fun l => { l with suspicion := .hunt (s.firstHunt t), observations := [] }).formStep t (s.firstHunt t)
        (s.activeTags t) := by
  unfold State.beginHunt State.firstHunt
  simp only

/-- Without a suspect the hunt is over as it begins: what stays of it is its result (R131, R140). -/
theorem State.beginHunt_of_none (h : s.activeTags t = []) :
    s.beginHunt t =
      (((s.raise t (.rogueUnresolved t .foreign 0 s.round none)).modTreeEntries t fun _ e => e.wake).modLight t fun l =>
        { l with suspicion := .unresolved, observations := []
                 lastHunt := some { reason := .foreign, round := s.round, tag := none } }) := by
  unfold State.beginHunt
  simp only [h]
  simp [State.unresolved, State.endHunt, State.modLight, State.modTree, State.setTree, State.tree, State.raise,
    State.raiseAt, State.modPort, State.setPort, State.modTreeEntries, State.port, HuntReason.after]

theorem Moves.beginHunt (hp : (s.tree t).SuspicionOk → (s.tree t).phase = .running) : Moves R s (s.beginHunt t) := by
  by_cases h : s.activeTags t = []
  · rw [State.beginHunt_of_none h]
    refine (Moves.raise t _).then (Moves.wakeAll.then (.modLight (s := State.modTreeEntries _ _ _) (fun _ hx => ?_)
      (fun hs hn => absurd (hp hs) hn) fun hd _ _ _ => State.wakeOwed_of_wakeAll hd))
    obtain ⟨hbase, hset, -, hcad, hstr, -⟩ := (Light.inRange_iff _).1 (Tree.light_inRange hx)
    exact (Light.inRange_iff _).2 ⟨hbase, hset, Nat.zero_le _, hcad, hstr, nofun⟩
  · rw [State.beginHunt_of_suspects h]
    refine Moves.then (.modLight (fun hw hx => ?_) (fun hs hn => absurd (hp hs) hn) fun _ _ _ hn => absurd rfl (hn _))
      (.formStep (State.hunting_of_suspicion (h := s.firstHunt t) (by simp)) fun hw _ =>
        ⟨State.activeTags_ascending hw t, Nat.zero_le _⟩)
    obtain ⟨hbase, hset, -, hcad, hstr, -⟩ := (Light.inRange_iff _).1 (Tree.light_inRange hx)
    refine (Light.inRange_iff _).2 ⟨hbase, hset, Nat.zero_le _, hcad, hstr, fun h' e => ?_⟩
    cases e
    exact (Hunt.inRange_iff _).2 ⟨State.activeTags_ascending hw t, h, Nat.zero_le _, Nat.zero_le _, rfl⟩

/-! ## Outcomes -/

/-- The members of the quiet set: the tags of the ACTIVE and TIMED entries of a tree (R137). -/
def State.quietTags (s : State) (t : TreeId) : List Nat :=
  (s.treeEntries t).filterMap fun x => if x.2.state = .active ∨ x.2.state = .timed then some x.1 else none

theorem State.quietTags_ascending (hw : Store.Wf s.roster) (t : TreeId) : tagsAscending (s.quietTags t) = true := by
  have := State.pickedTags_ascending hw t fun x => x.2.state = .active ∨ x.2.state = .timed
  simpa [State.quietTags] using this

theorem Moves.huntOutcome {h : Hunt} (hs : (s.tree t).light.suspicion = .hunt h) (lit : Bool) :
    Moves R s (s.huntOutcome t h lit) := by
  have hin := State.hunting_of_suspicion hs
  obtain ⟨phase, suspects, effective, darkRun, steps, started⟩ := h
  have hrange : (s.tree t).inRange = true → _ := fun hx => (Hunt.inRange_iff _).1 (Tree.hunt_inRange hx hs)
  have hsteps : min 255 (steps + 1) ≤ 255 := Nat.min_le_left _ _
  cases phase with
  | search group =>
    cases lit
    · exact .formStep hin fun _ hx => ⟨(hrange hx).2.2.2.2, hsteps⟩
    · have hwake : Moves R s (s.modTreeEntries t fun tag e => if tag ∈ group then e.wake else e) :=
        .hushSome hin fun tag e => (em (tag ∈ group)).elim (fun h => .inr (.inr (if_pos h))) fun h => .inl (if_neg h)
      exact hwake.then (.formStep (s := s.modTreeEntries t _) hin fun _ hx =>
        ⟨tagsAscending_sublist List.filter_sublist (hrange hx).1, hsteps⟩)
  | trial c =>
    cases lit
    · show Moves R s (((s.modEntry t c Entry.confirmFence).raise t _).endHunt t _ _)
      refine .then (.then (.modEntry fun e _ => (Entry.Rests.confirmFence e).step _) (.raise t _)) (.endHunt ?_ _ _)
      exact State.running_of_hunting (s := s) hin
    · show Moves R s ((s.modTreeEntries t fun tag e => if tag ∈ s.quietTags t then e.hush else e).setHunt t _)
      refine (Moves.hushSome hin fun tag e => ?_).then (.setHunt (s := s.modTreeEntries t _) hin fun hw hx => ?_)
      · by_cases hq : tag ∈ s.quietTags t
        · exact .inr (.inl (if_pos hq))
        · exact .inl (if_neg hq)
      · obtain ⟨hsus, hne, -, -, hc⟩ := hrange hx
        refine (Hunt.inRange_iff _).2 ⟨hsus, hne, Nat.zero_le _, hsteps, hc, ?_⟩
        exact State.quietTags_ascending (State.wf_of_modTreeEntries hw) t
  | allQuiet c quiet => exact (Moves.releaseCandidate c).then (.unresolved (s := s.releaseCandidate t c) hin _ _ _)

theorem Moves.observeHunt {h : Hunt} (hs : (s.tree t).light.suspicion = .hunt h) (hit : Bool) :
    Moves R s (s.observeHunt t h hit) := by
  unfold State.observeHunt
  split
  · exact .refl s
  · split
    · exact .refl s
    · split
      · exact .huntOutcome hs true
      · split
        · exact .huntOutcome hs false
        · rename_i hv
          refine .setHunt (State.hunting_of_suspicion hs) fun _ hx => ?_
          obtain ⟨hsus, hne, -, hsteps, hphase⟩ := (Hunt.inRange_iff _).1 (Tree.hunt_inRange hx hs)
          obtain ⟨-, ⟨-, hv4, -⟩, -⟩ := (Light.inRange_iff _).1 (Tree.light_inRange hx)
          refine (Hunt.inRange_iff _).2 ⟨hsus, hne, ?_, hsteps, hphase⟩
          simp only
          omega

theorem Moves.quietTest : Moves R s (s.quietTest t) := by
  unfold State.quietTest
  split
  · exact .refl s
  · rename_i h hs
    split
    · exact .refl s
    · split
      · rw [State.huntOf_eq_some] at hs
        exact .setHunt (State.hunting_of_suspicion hs) fun _ hx => Tree.hunt_inRange (h := h) hx hs
      · exact .refl s

/-- A suspect leaves the hunt (R139). -/
theorem Moves.leaveHunt (tag : Nat) : Moves R s (s.leaveHunt t tag) := by
  have hwake : Moves R s (s.modEntry t tag Entry.wake) := .modEntry fun e _ => (Entry.Rests.wake e).step _
  unfold State.leaveHunt
  split
  · exact .refl s
  · rename_i h hs
    rw [State.huntOf_eq_some] at hs
    have hin := State.hunting_of_suspicion hs
    obtain ⟨phase, suspects, effective, darkRun, steps, started⟩ := h
    have hrange : (s.tree t).inRange = true → _ := fun hx => (Hunt.inRange_iff _).1 (Tree.hunt_inRange hx hs)
    have hlist (hx : (s.tree t).inRange = true) : tagsAscending (suspects.filter fun x => x ≠ tag) = true :=
      tagsAscending_sublist List.filter_sublist (hrange hx).1
    cases phase with
    | search group =>
      simp only
      split
      · split
        · exact hwake.then (.unresolved (s := s.modEntry t tag _) hin _ _ _)
        · rename_i hne
          split
          · exact hwake.then (.formStep (s := s.modEntry t tag _) hin fun _ hx => ⟨hlist hx, (hrange hx).2.2.2.1⟩)
          · refine hwake.then (.setHunt (s := s.modEntry t tag _) hin fun _ hx => ?_)
            obtain ⟨-, -, hrun, hsteps, hgroup⟩ := hrange hx
            exact (Hunt.inRange_iff _).2
              ⟨hlist hx, hne, hrun, hsteps, tagsAscending_sublist List.filter_sublist hgroup⟩
      · exact .refl s
    | trial c =>
      simp only
      split
      · exact .unresolved hin _ _ _
      · exact .refl s
    | allQuiet c quiet =>
      simp only
      split
      · exact .unresolved hin _ _ _
      · split
        · refine hwake.then (.setHunt (s := s.modEntry t tag _) hin fun _ hx => ?_)
          obtain ⟨hsus, hne, hrun, hsteps, hc, hquiet⟩ := hrange hx
          exact (Hunt.inRange_iff _).2 ⟨hsus, hne, hrun, hsteps, hc, tagsAscending_sublist List.filter_sublist hquiet⟩
        · exact .refl s

/-! ## Suspicion -/

/-- Outside a hunt the suspicion state of a RUNNING tree and its observation list may change. -/
theorem Moves.suspect (hp : (s.tree t).SuspicionOk → (s.tree t).phase = .running)
    (hn : s.hunting t = false) {x : Suspicion} {list : List Bool} (hx : ∀ h, x ≠ .hunt h)
    (hl : (s.tree t).inRange = true → list.length ≤ 8) :
    Moves R s (s.modLight t fun l => { l with suspicion := x, observations := list }) := by
  refine .modLight (fun _ h => ?_) (fun hs hne => absurd (hp hs) hne) fun _ _ hin => ?_
  · obtain ⟨hbase, hset, -, hcad, hstr, -⟩ := (Light.inRange_iff _).1 (Tree.light_inRange h)
    exact (Light.inRange_iff _).2 ⟨hbase, hset, hl h, hcad, hstr, fun h' e => absurd e (hx h')⟩
  · rw [State.hunting_iff.2 hin] at hn
    cases hn

theorem State.not_hunting_of_suspicion (h : ∀ x, (s.tree t).light.suspicion ≠ .hunt x) : s.hunting t = false := by
  rw [← Bool.not_eq_true, State.hunting_iff]
  exact fun ⟨x, hx⟩ => h x hx

theorem Moves.testWatchList (hp : (s.tree t).SuspicionOk → (s.tree t).phase = .running) (hn : s.hunting t = false) :
    Moves R s (s.testWatchList t) := by
  unfold State.testWatchList
  simp only
  split
  · exact .beginHunt hp
  · split
    · exact Moves.then (.suspect hp hn (by simp) fun _ => Nat.zero_le _) (.raise t _)
    · exact .refl s

theorem Moves.enterWatch (hp : (s.tree t).phase = .running) (hn : s.hunting t = false) (n : Round) (level : Nat) (stray : Bool) :
    Moves R s (s.enterWatch t n level stray) := by
  unfold State.enterWatch
  refine .then (.then (.suspect (fun _ => hp) hn (by simp) fun _ => by simp) (.raise t _)) (.testWatchList ?_ ?_)
  · intro _
    rw [State.tree_of_trees (State.raise_trees _ t _)]
    simpa using hp
  · refine State.not_hunting_of_suspicion fun x => ?_
    rw [State.tree_of_trees (State.raise_trees _ t _)]
    simp

theorem Light.inRange_observations {l : Light} {list : List Bool} (h : l.inRange = true) (hl : list.length ≤ 8) :
    { l with observations := list }.inRange = true := by
  obtain ⟨hbase, hset, -, hcad, hstr, hh⟩ := (Light.inRange_iff l).1 h
  exact (Light.inRange_iff _).2 ⟨hbase, hset, hl, hcad, hstr, hh⟩

theorem Moves.lastDark (level : Nat) :
    Moves R s (s.modLight t fun l => { l with lastDark := some (level, s.round) }) :=
  .modLight_rest (fun _ h => Tree.light_inRange h) rfl

/-- The last eight outcomes of an observation list that was in range. -/
theorem Moves.observe {list : List Bool} (hl : (s.tree t).inRange = true → list.length ≤ 8) :
    Moves R s (s.modLight t fun l => { l with observations := list }) :=
  .modLight_rest (fun _ h => Light.inRange_observations (Tree.light_inRange h) (hl h)) rfl

theorem State.modLight_modLight (f g : Light → Light) : (s.modLight t f).modLight t g = s.modLight t fun l => g (f l) := by
  simp [State.modLight, State.modTree, State.setTree, State.tree]

/-- A hunt begins alike whatever was observed before it. -/
theorem State.beginHunt_observe (f : List Bool → List Bool) :
    (s.modLight t fun l => { l with observations := f l.observations }).beginHunt t = s.beginHunt t := by
  by_cases h : s.activeTags t = []
  · rw [State.beginHunt_of_none h, State.beginHunt_of_none (s := s.modLight t _) h]
    simp [State.modLight, State.modTree, State.setTree, State.tree, State.raise, State.raiseAt, State.modPort, State.setPort,
      State.modTreeEntries, State.port]
  · rw [State.beginHunt_of_suspects h, State.beginHunt_of_suspects (s := s.modLight t _) h, State.modLight_modLight]
    rfl

/-- The test of the list in WATCH follows the observation that made it (R129): of nine outcomes none is kept. -/
theorem Moves.watchObserves (hp : (s.tree t).phase = .running) (hs : (s.tree t).light.suspicion = .watch) (hit : Bool) :
    Moves R s ((s.modLight t fun l => { l with observations := l.observations ++ [hit] }).testWatchList t) := by
  unfold State.testWatchList
  simp only [State.modLight_tree]
  split
  · rw [State.beginHunt_observe fun l => l ++ [hit]]
    exact .beginHunt fun _ => hp
  · split
    · rw [State.modLight_modLight]
      refine .then (.suspect (fun _ => hp) (State.not_hunting_of_suspicion fun x => ?_) (by simp) fun _ => by simp) (.raise t _)
      rw [hs]
      nofun
    · rename_i hlen
      exact .modLight_rest (fun _ h => Light.inRange_observations (Tree.light_inRange h) (by omega)) rfl

/-- A dark-window level of a RUNNING tree (R127, R130). -/
theorem Moves.judgeDark (hp : (s.tree t).phase = .running) (level : Nat) : Moves R s (s.judgeDark t level) := by
  have hlast : Moves R s (s.modLight t fun l => { l with lastDark := some (level, s.round) }) :=
    .modLight_rest (fun _ h => Tree.light_inRange h) rfl
  unfold State.judgeDark
  simp only
  split
  · rename_i hs
    split
    · refine hlast.then (.enterWatch ?_ (State.not_hunting_of_suspicion fun x => ?_) _ _ _)
      · simpa using hp
      · simp [hs]
    · exact hlast
  · rename_i hs
    refine hlast.then (.watchObserves ?_ ?_ _)
    · simpa using hp
    · simpa using hs
  · rename_i h hs
    refine hlast.then (.observeHunt ?_ _)
    simpa using hs
  · refine hlast.then (.modLight_rest (fun _ h => Light.inRange_observations (Tree.light_inRange h) ?_) rfl)
    simp only [List.length_drop, List.length_append, List.length_singleton]
    have := ((Light.inRange_iff _).1 (Tree.light_inRange h)).2.2.1
    simp only [State.modLight_tree] at this ⊢
    omega

/-- A stray observation on a RUNNING tree (R128). -/
theorem Moves.judgeStray (hp : (s.tree t).phase = .running) (n : Round) (level : Nat) :
    Moves R s (s.judgeStray t n level) := by
  have hstray : Moves R s (s.modLight t fun l => { l with strays := min maxCount (l.strays + 1) }) :=
    .modLight_rest (fun _ h => by
      obtain ⟨hbase, hset, hobs, hcad, -, hh⟩ := (Light.inRange_iff _).1 (Tree.light_inRange h)
      exact (Light.inRange_iff _).2 ⟨hbase, hset, hobs, hcad, Nat.min_le_left _ _, hh⟩) rfl
  unfold State.judgeStray
  simp only
  split
  · rename_i hs
    refine hstray.then (.enterWatch ?_ (State.not_hunting_of_suspicion fun x => ?_) _ _ _)
    · simpa using hp
    · simp [hs]
  · exact hstray

/-! ## Overruns, the cadence, ABANDON -/

theorem Moves.judgeOverrun (tag : Nat) (n : Round) (level : Nat) : Moves R s (s.judgeOverrun t tag n level) := by
  unfold State.judgeOverrun
  split
  · exact .refl s
  · split
    · split
      · exact .then (.then (.superviseFence tag false) (.raise t _)) (.leaveHunt tag)
      · exact .refl s
    · exact .refl s

theorem Settings.inRange_iff (x : Settings) :
    x.inRange = true ↔ (x.target ≤ 131071 ∧ x.nearBound ≤ x.target ∧ 2 ≤ x.overhead ∧ x.overhead ≤ 8) ∧
      (1 ≤ x.minBurst ∧ x.minBurst ≤ 64) ∧ (16 ≤ x.wCall ∧ x.wCall ≤ 1600) ∧ (1 ≤ x.kCall ∧ x.kCall ≤ 1024) ∧
      (4 ≤ x.wDark ∧ x.wDark ≤ 64) ∧ (1 ≤ x.kDark ∧ x.kDark ≤ 256) ∧ (1 ≤ x.poll ∧ x.poll ≤ 64) ∧
      (1 ≤ x.silence ∧ x.silence ≤ 16) ∧ 1 ≤ x.defaultPeak ∧ x.defaultPeak ≤ 1875 := by
  simp only [Settings.inRange, Bool.and_eq_true, decide_eq_true_eq]
  tauto

theorem Moves.cadenceAct : Moves R s (s.cadenceAct t) := by
  refine .modLight_rest (fun _ h => ?_) (by split <;> rfl)
  obtain ⟨hbase, hset, hobs, -, hstr, hh⟩ := (Light.inRange_iff _).1 (Tree.light_inRange h)
  obtain ⟨-, -, -, -, -, ⟨-, hdark⟩, -⟩ := (Settings.inRange_iff _).1 ((Tree.inRange_iff _).1 h).1.1
  split
  · exact (Light.inRange_iff _).2 ⟨hbase, hset, hobs, Nat.zero_le _, hstr, hh⟩
  · rename_i hdue
    refine (Light.inRange_iff _).2 ⟨hbase, hset, hobs, ?_, hstr, hh⟩
    have : (s.tree t).light.cadence + 1 < (s.tree t).settings.kDark := by
      unfold Light.darkDue at hdue
      split at hdue <;> simp at hdue <;> exact hdue
    simp only
    omega

/-- ABANDON (R142): a hunt runs on a RUNNING tree alone, and so does WATCH. -/
theorem Moves.abandonHunt : Moves R s (s.abandonHunt t) := by
  have hclear (hs : ∀ h, (s.tree t).light.suspicion ≠ .hunt h) :
      Moves R s (s.modLight t fun l => { l with suspicion := .clear, observations := [] }) := by
    refine .modLight (fun _ h => ?_) (fun _ _ => rfl) fun _ _ ⟨h, hh⟩ => absurd hh (hs h)
    obtain ⟨hbase, hset, -, hcad, hstr, -⟩ := (Light.inRange_iff _).1 (Tree.light_inRange h)
    exact (Light.inRange_iff _).2 ⟨hbase, hset, Nat.zero_le _, hcad, hstr, nofun⟩
  unfold State.abandonHunt
  split
  · exact .refl s
  · rename_i hs
    exact hclear fun h => by simp [hs]
  · rename_i hs
    exact hclear fun h => by simp [hs]
  · rename_i h hs
    have hp := State.running_of_hunting (State.hunting_of_suspicion hs)
    split
    · exact .endHunt hp _ _
    · exact .then (.releaseCandidate _) (.endHunt (s := s.releaseCandidate t _) hp _ _)
    · exact .then (.releaseCandidate _) (.endHunt (s := s.releaseCandidate t _) hp _ _)

end Sys2Proof.Machine
end

section
/-! PROOFS. The moves of the enrolment engine, the meter bank and the journal (chapters 3, 9 and 10). -/

namespace Sys2Proof.Machine

variable {R : Prop} {s : State} {t : TreeId}

/-! ## The enrolment engine -/

theorem Moves.modEngine {f : Engine → Engine}
    (hr : (s.tree t).inRange = true → (f (s.tree t).engine).count ≤ 1023 ∧ (f (s.tree t).engine).collisions ≤ maxCount)
    (hw : (f (s.tree t).engine).windows.Sublist (s.tree t).engine.windows)
    (hc : (s.tree t).TagsOk → ∀ tag, (f (s.tree t).engine).chosen = some (.window (.probe tag)) → tagOk tag = true)
    (hb : (s.tree t).TagsOk → ∀ b ∈ (f (s.tree t).engine).bookedProbe, tagOk b.2 = true) :
    Moves R s (s.modEngine t f) := .modTree (.engine hr hw hc hb)

theorem Tree.engine_inRange {x : Tree} (h : x.inRange = true) : x.engine.count ≤ 1023 ∧ x.engine.collisions ≤ maxCount :=
  ((Tree.inRange_iff x).1 h).2.1

theorem Moves.addCollisions (n : Nat) : Moves R s (s.addCollisions t n) :=
  .modEngine (fun h => ⟨(Tree.engine_inRange h).1, Nat.min_le_left _ _⟩) (.refl _) (fun h => h.2.2.2.1) fun h => h.2.2.2.2

theorem Moves.releaseWindow (n : Round) : Moves R s (s.releaseWindow t n) :=
  .modEngine Tree.engine_inRange List.filter_sublist (fun h => h.2.2.2.1) fun h => h.2.2.2.2

/-- A failed enrolment of an entry that is not hushed (R26, R61). -/
theorem Moves.failEnrolment {tag : Nat} (hh : ∀ e, s.entry t tag = some e → e.hushed = false) (reason : FailReason)
    (roundTrip : Option Nat) : Moves R s (s.failEnrolment t tag reason roundTrip) := by
  unfold State.failEnrolment
  split
  · exact .refl s
  · rename_i e he
    split
    · exact .refl s
    · exact .then (.vacate t tag) (.raise t _)
    · rename_i e' hf
      exact .then (.setEntry he ((Entry.Rests.failEnrolment hf (hh e he)).step _)) (.raise t _)

theorem Entry.hushed_of_heard {e : Entry} (h : e.state = .heard) : e.hushed = false := by
  obtain ⟨_, _, _, _, _, _, body⟩ := e
  cases body with
  | heard f => rfl
  | _ => cases h

/-- The tree of a slot whose tag is in range. -/
theorem slotTree_slotOf {tag : Nat} {t' : TreeId} (h : tagOk tag = true) (ht : t'.val = slotTree (slotOf t tag)) : t' = t :=
  Fin.ext (ht.trans (slot_of_slotOf h).1)

/-- A delay measured for a HEARD entry, at most T (R25, R55). -/
theorem EntryStep.toTimed {tag d : Nat} {e e' : Entry} (ht : TagsInRange s → tagOk tag = true)
    (hd : d ≤ (s.tree t).settings.target) (h : e.toTimed d = some e') : EntryStep s (slotOf t tag) e e' := by
  obtain ⟨serial, occupied, k, booked, capped, owed, body⟩ := e
  cases body with
  | heard f =>
    obtain rfl : _ = e' := by simpa [Entry.toTimed] using h
    refine ⟨⟨rfl, rfl, rfl, rfl, fun hdrop => ?_⟩, fun _ hr => ?_, fun _ _ _ _ _ h => absurd h Bool.false_ne_true, fun htags t' ht' hw => ?_⟩
    · refine Entry.owe_dropAlone nofun ((Entry.dropAlone_of_ne (by simp [Entry.state])).2 ?_)
      exact (Entry.dropAlone_of_ne (e := ⟨serial, occupied, k, booked, capped, owed, .heard f⟩) nofun).1 hdrop
    · rw [Entry.inRange_eq, Bool.and_eq_true] at hr ⊢
      exact ⟨hr.1, rfl⟩
    · obtain rfl := slotTree_slotOf (ht htags) ht'
      refine ⟨?_, hw.1⟩
      rintro x ⟨⟩
      exact hd
  | _ => simp [Entry.toTimed] at h

theorem Moves.takeEcho {tag : Nat} (ht : TagsInRange s → tagOk tag = true)
    (hh : ∀ e, s.entry t tag = some e → e.hushed = false) (lag : Nat) : Moves R s (s.takeEcho t tag lag) := by
  unfold State.takeEcho
  simp only
  split
  · refine .modEntry fun e _ => ?_
    cases hf : e.toTimed ((s.tree t).settings.target - ((s.tree t).settings.nearBound + lag)) with
    | none => exact .refl _ _
    | some e' => exact .toTimed ht (Nat.sub_le _ _) hf
  · exact .failEnrolment hh _ _

theorem Moves.noEcho (tag : Nat) : Moves R s (s.noEcho t tag) := by
  unfold State.noEcho
  split
  · exact .refl s
  · rename_i e he
    split
    · rename_i f hf
      split
      · refine .failEnrolment (fun e' he' => ?_) _ _
        obtain rfl : e = e' := Option.some.inj (he.symm.trans he')
        exact Entry.hushed_of_heard (by simp [Entry.state, hf])
      · rename_i ht
        obtain ⟨serial, occupied, k, booked, capped, owed, body⟩ := e
        obtain rfl : body = .heard f := hf
        refine .setEntry he (Entry.Rests.step (.withBody (e := ⟨_, _, _, _, _, _, .heard f⟩)
          (b := .heard { f with tries := f.tries + 1 }) nofun nofun (fun _ => ?_) nofun fun target hd => by simpa [Entry.delaysWithin, Entry.delay, Entry.withBody] using hd) _)
        simp only [Body.inRange, decide_eq_true_eq]
        omega
    · exact .refl s

theorem Moves.probeWindow (light : List Burst) : Moves R s (s.probeWindow t light) := by
  unfold State.probeWindow
  split
  · exact .refl s
  · rename_i w hw
    split
    · exact .refl s
    · rename_i tag serial occupied hk
      have hcollisions (n : Nat) : Moves R s (s.addCollisions t n) := .addCollisions n
      have htag : TagsInRange s → tagOk tag = true := fun h =>
        (h t).2.2.1 w (List.mem_of_find?_eq_some hw) tag serial occupied hk
      simp only
      split
      · rename_i hprobed
        have hheard : ∀ e, s.entry t tag = some e → e.hushed = false := fun e he => by
          simp only [State.stillProbed, he, Bool.and_eq_true, beq_iff_eq] at hprobed
          exact Entry.hushed_of_heard hprobed.2
        split
        · refine .then (.then (hcollisions _) (.takeEcho (fun h => ?_) ?_ _)) (.releaseWindow _)
          swap
          · exact hheard
          have := (h t).2.2.1
          simp only [State.addCollisions, State.modEngine_tree] at this
          exact this w (List.mem_of_find?_eq_some hw) tag serial occupied hk
        · exact .then (.then (hcollisions _) (.noEcho tag)) (.releaseWindow _)
      · exact .then (hcollisions _) (.releaseWindow _)

theorem foldl_pick_mem {α : Type} (f : α → α → Bool) (l : List α) (a : α) :
    l.foldl (fun best x => if f best x then x else best) a = a ∨ l.foldl (fun best x => if f best x then x else best) a ∈ l := by
  induction l generalizing a with
  | nil => exact .inl rfl
  | cons b l ih =>
    simp only [List.foldl_cons, List.mem_cons]
    by_cases hf : f a b = true
    · rw [if_pos hf]
      obtain h | h := ih b
      · exact .inr (.inl h)
      · exact .inr (.inr h)
    · rw [if_neg hf]
      obtain h | h := ih a
      · exact .inl h
      · exact .inr (.inr h)

/-- The window chosen at a due cut names a tag of the tree's roster (R44). -/
theorem State.chooseWindow_tagOk {tag : Nat} (h : s.chooseWindow t = .window (.probe tag)) : tagOk tag = true := by
  have hmem : ∃ n, (tag, n) ∈ s.eligible t := by
    unfold State.chooseWindow at h
    split at h
    · rename_i tag' n ho
      cases h
      refine ⟨n, ?_⟩
      unfold oldestHeard at ho
      split at ho
      · cases ho
      · rename_i a rest hl
        rw [hl, ← Option.some.inj ho]
        obtain he | hm := foldl_pick_mem (fun best x => laterThan best.2 x.2) rest a
        · rw [he]
          exact List.mem_cons_self
        · exact List.mem_cons_of_mem _ hm
    · split at h <;> cases h
  obtain ⟨n, hn⟩ := hmem
  obtain ⟨x, hx, he⟩ := List.mem_filterMap.1 hn
  obtain ⟨k, -, -, hk⟩ := State.mem_treeEntries.1 hx
  have : x.1 = tag := by
    split at he
    · split at he
      · cases he
      · cases he
        rfl
    · cases he
  rw [← this, ← hk]
  exact tagOk_slotTag k

/-- The engine's answer at a cut (R43, R44, R45). -/
theorem Moves.scheduleAct : Moves R s (s.scheduleAct t) := by
  have hcount (h : (s.tree t).inRange = true) : (s.tree t).settings.kCall ≤ 1024 :=
    ((Settings.inRange_iff _).1 ((Tree.inRange_iff _).1 h).1.1).2.2.2.1.2
  have hchoose : ∀ tag, some (s.chooseWindow t) = some (.window (.probe tag)) → tagOk tag = true := fun tag h =>
    State.chooseWindow_tagOk (Option.some.inj h)
  unfold State.scheduleAct
  simp only
  split
  · split
    · exact .modEngine Tree.engine_inRange (.refl _) (fun _ => nofun) fun h => h.2.2.2.2
    · exact .modEngine (fun h => ⟨Nat.zero_le _, (Tree.engine_inRange h).2⟩) (.refl _) (fun _ => hchoose)
        fun h => h.2.2.2.2
  · split
    · split
      · exact .modEngine (fun h => ⟨Nat.zero_le _, (Tree.engine_inRange h).2⟩) (.refl _) (fun _ => nofun) fun h => h.2.2.2.2
      · exact .modEngine (fun h => ⟨Nat.zero_le _, (Tree.engine_inRange h).2⟩) (.refl _) (fun _ => hchoose)
          fun h => h.2.2.2.2
    · rename_i hdue
      refine .modEngine (fun h => ⟨?_, (Tree.engine_inRange h).2⟩) (.refl _) (fun _ => nofun) fun h => h.2.2.2.2
      have := hcount h
      simp only
      omega

/-! ## Meters and watches -/

/-- The counts of a slot's meters in their ranges, band by band (R147). -/
theorem Meters.inRange_iff (m : Meters) :
    m.inRange = true ↔ (∀ b, m.up.get b ≤ maxBytes) ∧ (∀ b, m.down.get b ≤ maxBytes) ∧ (∀ b, m.withheld.get b ≤ maxBytes) ∧
      (m.granted ≤ maxCount ∧ m.inService ≤ maxCount) ∧ m.hushed ≤ maxCount ∧ m.fenced ≤ maxCount := by
  simp only [Meters.inRange, Quad.toList, List.all_append, List.all_cons, List.all_nil, Bool.and_true, Bool.and_eq_true,
    decide_eq_true_eq, Fin.forall_fin_succ, Fin.forall_fin_zero]
  simp only [Quad.get, Fin.succ]
  tauto

theorem Quad.set_le {q : Quad Nat} {limit n : Nat} (b : BandId) (h : ∀ i, q.get i ≤ limit) (hn : n ≤ limit) (i : Fin 4) :
    (q.set b n).get i ≤ limit := by
  rw [Quad.get_set]
  split
  · exact hn
  · exact h i

theorem Meters.addUp_inRange {m : Meters} (b : BandId) (n : Nat) (h : m.inRange = true) : (m.addUp b n).inRange = true := by
  rw [Meters.inRange_iff] at h ⊢
  exact ⟨Quad.set_le b h.1 (satAdd_le _ _ _), h.2⟩

theorem Meters.addDown_inRange {m : Meters} (b : BandId) (n : Nat) (h : m.inRange = true) :
    (m.addDown b n).inRange = true := by
  rw [Meters.inRange_iff] at h ⊢
  exact ⟨h.1, Quad.set_le b h.2.1 (satAdd_le _ _ _), h.2.2⟩

theorem Meters.addWithheld_inRange {m : Meters} (b : BandId) (n : Nat) (h : m.inRange = true) :
    (m.addWithheld b n).inRange = true := by
  rw [Meters.inRange_iff] at h ⊢
  exact ⟨h.1, h.2.1, Quad.set_le b h.2.2.1 (satAdd_le _ _ _), h.2.2.2⟩

theorem Meters.addGranted_inRange {m : Meters} (n : Nat) (h : m.inRange = true) : (m.addGranted n).inRange = true := by
  rw [Meters.inRange_iff] at h ⊢
  exact ⟨h.1, h.2.1, h.2.2.1, ⟨satAdd_le _ _ _, h.2.2.2.1.2⟩, h.2.2.2.2⟩

theorem Meters.addRound_inRange {m : Meters} (mark : Option EntryMark) (h : m.inRange = true) :
    (m.addRound mark).inRange = true := by
  rw [Meters.inRange_iff] at h
  obtain ⟨hup, hdown, hwith, ⟨hgranted, hservice⟩, hhushed, hfenced⟩ := h
  cases mark with
  | none => exact (Meters.inRange_iff m).2 ⟨hup, hdown, hwith, ⟨hgranted, hservice⟩, hhushed, hfenced⟩
  | some mark =>
    cases mark with
    | inService => exact (Meters.inRange_iff _).2 ⟨hup, hdown, hwith, ⟨hgranted, satAdd_le _ _ _⟩, hhushed, hfenced⟩
    | hushed => exact (Meters.inRange_iff _).2 ⟨hup, hdown, hwith, ⟨hgranted, hservice⟩, satAdd_le _ _ _, hfenced⟩
    | fenced => exact (Meters.inRange_iff _).2 ⟨hup, hdown, hwith, ⟨hgranted, hservice⟩, hhushed, satAdd_le _ _ _⟩

theorem zeroMeters_inRange (n : Round) (b : Bool) : (zeroMeters n b).inRange = true := by
  rw [Meters.inRange_iff]
  simp [zeroMeters]

theorem Moves.writeMeters {k : Nat} {m : Meters} (h : m.inRange = true) :
    Moves R s { s with meters := Store.write k m s.meters } :=
  .meters _ (Store.wf_write _ _ _) fun hr x hx => by
    obtain rfl | hx := Store.mem_write hx
    · exact h
    · exact hr x hx

theorem Moves.openMeters (tag : Nat) : Moves R s (s.openMeters t tag) := by
  unfold State.openMeters
  split
  · exact .refl s
  · exact .writeMeters (zeroMeters_inRange _ _)

/-- A watch of 0 to 7 is written. -/
theorem Moves.writeWatch {n : Nat} (w : Watch) (h : (∀ x ∈ s.watches, x.1 < 8) → n < 8) :
    Moves R s { s with watches := Store.write n w s.watches } :=
  (Move.watches s _ (Store.wf_write _ _ _) fun hk x hx => by
    obtain rfl | hx := Store.mem_write hx
    · exact h hk
    · exact hk x hx).moves

theorem Moves.capEntry (tag : Nat) (b : Bool) : Moves R s (s.modEntry t tag fun e => { e with capped := b }) :=
  .modEntry fun e _ => (Entry.Rests.capped e b).step _

theorem Moves.testWatch (n : Nat) : Moves R s (s.testWatch n) := by
  unfold State.testWatch
  split
  · exact .refl s
  · rename_i w hw
    split
    · unfold State.fireWatch
      have hfired : Moves R s { s with watches := Store.write n { w with fired := true } s.watches } :=
        .writeWatch _ fun h => h _ (Store.mem_of_read hw)
      simp only
      split
      · exact .then (.then (hfired.then (.raise _ _)) (.capEntry _ _)) (.modMeters _ _ _ fun _ => id)
      · exact hfired.then (.raise _ _)
    · exact .refl s

theorem Moves.testWatches (tag : Nat) : Moves R s (s.testWatches t tag) :=
  .foldl _ (fun _ n => .testWatch n) _ s

theorem Moves.countUp (tag n : Nat) : Moves R s (s.countUp t tag n) :=
  .then (.modMeters t tag _ fun _ => Meters.addUp_inRange _ _) (.testWatches tag)

theorem Moves.countDown (tag n : Nat) : Moves R s (s.countDown t tag n) :=
  .then (.modMeters t tag _ fun _ => Meters.addDown_inRange _ _) (.testWatches tag)

theorem Moves.countWithheld (tag n : Nat) : Moves R s (s.countWithheld t tag n) :=
  .modMeters t tag _ fun _ => Meters.addWithheld_inRange _ _

theorem Moves.rearm (tag : Nat) : Moves R s (s.rearm t tag) := .mapWatches _ fun x => by split <;> rfl

theorem Moves.attributeRound : Moves R s (s.attributeRound t) := by
  unfold State.attributeRound
  split
  · exact .refl s
  · refine .mapMeters _ fun x => ?_
    split
    · simp only
      split
      · exact ⟨rfl, fun h => Meters.addGranted_inRange _ (Meters.addRound_inRange _ h)⟩
      · exact ⟨rfl, Meters.addRound_inRange _⟩
    · exact ⟨rfl, id⟩

/-! ## The journal -/

theorem Moves.journalRose (n : Nat) : Moves R s (s.journalRose n) := by
  obtain h | ⟨-, -, h⟩ := s.journalRose_cases n
  · rw [h]
  · rw [h]
    exact .raiseKeyless _

/-- A record that holds no booked place is written below the ceiling (R162, R165). -/
theorem Moves.writeRecord {r : Record} (hl : s.journal.records.length + s.journal.booked < journalPlaces)
    (hr : MetersInRange s → r.meters.inRange = true) : Moves R s (s.writeRecord r) :=
  .then
    (Move.journal s { s.journal with records := s.journal.records ++ [r] } rfl
      (fun _ => by simp only [List.length_append, List.length_singleton]; omega) fun h x hx => by
        obtain hx | hx := List.mem_append.1 hx
        · exact h.2 x hx
        · rw [List.mem_singleton.1 hx]
          exact hr h).moves
    (.journalRose _)

theorem MetersInRange.of_meterOf (h : MetersInRange s) {tag : Nat} {m : Meters} (hm : s.meterOf t tag = some m) :
    m.inRange = true := h.1 _ (Store.mem_of_read hm)

theorem Moves.closeSlot (tally : CloseTally) (tag : Nat) : Moves R s (s.closeSlot tally t tag).1 := by
  unfold State.closeSlot
  split
  · rename_i m e hm he
    split
    · exact .refl s
    · split
      · rename_i hl
        exact .then (.then (.then
          (.writeRecord (hl.trans (by decide)) fun h => h.of_meterOf hm)
          (.writeMeters (zeroMeters_inRange _ _))) (.rearm tag)) (.capEntry tag _)
      · exact .refl s
  · exact .refl s

theorem Moves.intervals (q : Quad Round) : Moves R s { s with journal := { s.journal with intervals := q } } :=
  (Move.journal s { s.journal with intervals := q } rfl id fun h => h.2).moves

theorem Moves.closeTree : Moves R s (s.closeTree t) := by
  have hfold : ∀ (l : List Nat) (acc : State × CloseTally),
      Moves R acc.1 (l.foldl (fun acc tag => acc.1.closeSlot acc.2 t tag) acc).1 := by
    intro l
    induction l with
    | nil => exact fun acc => .refl _
    | cons a l ih => exact fun acc => .then (.closeSlot _ a) (ih _)
  have hclosed := hfold (s.openTags t) (s, { written := 0, carried := 0 })
  unfold State.closeTree
  revert hclosed
  generalize (s.openTags t).foldl _ _ = r
  exact fun hclosed => .then (hclosed.then (.intervals _)) (.raise t _)

theorem Moves.closeTrees (k : Option TreeId) : Moves R s (s.closeTrees k) := by
  cases k with
  | some t => exact .closeTree
  | none => exact .foldl _ (fun _ _ => .closeTree) _ s

end Sys2Proof.Machine
end

section
/-! PROOFS. The moves of the upstream checker and of the traffic interface (chapters 4 and 5). -/

namespace Sys2Proof.Machine

variable {R : Prop} {s : State} {t : TreeId}

/-! ## Grants -/

theorem Moves.modChecker {f : Checker → Checker}
    (h : (∀ c ∈ (s.tree t).checker.carried, tagOk c.grant.tag = true) →
      ∀ c ∈ (f (s.tree t).checker).carried, tagOk c.grant.tag = true) : Moves R s (s.modChecker t f) :=
  .modTree (.checker h)

theorem Moves.setMark (n : Round) (tag : Nat) (m : GrantMark) : Moves R s (s.setMark t n tag m) :=
  .modChecker fun h c hc => by
    split at hc
    · exact h c hc
    · obtain ⟨c', hc', rfl⟩ := Option.map_eq_some_iff.1 hc
      have := h c' hc'
      split <;> exact this

/-- Every grant that can be judged names a tag of a slot (R17). -/
theorem State.grantsOf_tagOk (h : TagsInRange s) {n : Round} {g : Grant} (hg : g ∈ s.grantsOf t n) : tagOk g.tag = true := by
  unfold State.grantsOf at hg
  simp only at hg
  split at hg
  · split at hg
    · rename_i r hr
      exact (h t).1 r (List.mem_of_find?_eq_some hr) g hg
    · cases hg
  · split at hg
    · rename_i c hc
      split at hg
      · rw [List.mem_singleton.1 hg]
        exact (h t).2.1 c hc
      · cases hg
    · cases hg

theorem Entry.setDelay_hushed (e : Entry) (d : Nat) : (e.setDelay d).hushed = e.hushed := by
  obtain ⟨_, _, _, _, _, _, body⟩ := e
  cases body <;> rfl

theorem Entry.setDelay_state (e : Entry) (d : Nat) : (e.setDelay d).state = e.state := by
  obtain ⟨_, _, _, _, _, _, body⟩ := e
  cases body <;> rfl

theorem Entry.setDelay_owed (e : Entry) (d : Nat) : (e.setDelay d).owed = e.owed := by
  obtain ⟨_, _, _, _, _, _, body⟩ := e
  cases body <;> rfl

theorem Entry.setDelay_delaysWithin {e : Entry} {d target : Nat} (hd : d ≤ target) (h : e.delaysWithin target) :
    (e.setDelay d).delaysWithin target := by
  obtain ⟨_, _, _, _, _, _, body⟩ := e
  cases body with
  | timed f => exact ⟨fun x hx => by cases hx; exact hd, h.2⟩
  | active f => exact ⟨fun x hx => by cases hx; exact hd, h.2⟩
  | silent f => exact ⟨fun x hx => by cases hx; exact hd, h.2⟩
  | fenced f => exact ⟨fun x hx => by cases hx; exact hd, h.2⟩
  | heard f => exact h
  | leaving d => exact h

theorem Entry.setDelay_inRange (e : Entry) (d : Nat) : (e.setDelay d).inRange = e.inRange := by
  obtain ⟨_, _, _, _, _, _, body⟩ := e
  cases body <;> rfl

theorem Entry.Keeps.setDelay (e : Entry) (d : Nat) : e.Keeps (e.setDelay d) where
  serial := by unfold Entry.setDelay; split <;> rfl
  occupied := by unfold Entry.setDelay; split <;> rfl
  contract := by unfold Entry.setDelay; split <;> rfl
  booked := by unfold Entry.setDelay; split <;> rfl
  drops h := by rwa [Entry.DropAlone, Entry.setDelay_state, Entry.setDelay_owed]

/-- A corrected delay lies within T of the tree of its slot (R77). -/
theorem EntryStep.correct {tag d : Nat} (e : Entry) (ht : TagsInRange s → tagOk tag = true)
    (hd : d ≤ (s.tree t).settings.target) : EntryStep s (slotOf t tag) e ((e.setDelay d).owe .adjust) :=
  have hk := Entry.Keeps.setDelay e d
  have howe := Entry.Rests.owe (e.setDelay d) (k := .adjust) nofun nofun
  { serial := howe.serial.trans hk.serial
    occupied := howe.occupied.trans hk.occupied
    contract := howe.contract.trans hk.contract
    booked := howe.booked.trans hk.booked
    range := fun _ h => howe.range (by rwa [Entry.setDelay_inRange])
    drops := howe.drops ∘ hk.drops
    wakes := fun _ _ _ hdrop hw => howe.wakes (hk.drops hdrop) fun hh => by
      rw [Entry.setDelay_hushed] at hh
      rw [Entry.setDelay_owed]
      exact hw hh
    delays := fun htags t' ht' hw => by
      obtain rfl := slotTree_slotOf (ht htags) ht'
      exact Entry.setDelay_delaysWithin hd hw }

theorem Moves.correctDelay {tag : Nat} (ht : TagsInRange s → tagOk tag = true) (offset : Int) :
    Moves R s (s.correctDelay t tag offset) := by
  unfold State.correctDelay
  split
  · exact .refl s
  · split
    · exact .refl s
    · rename_i e he
      split
      · exact .refl s
      · rename_i d hd
        have hset : Moves R s (s.setEntry t tag
            ((e.setDelay (correctedDelay d offset (s.tree t).settings.target)).owe .adjust)) :=
          .setEntry he (.correct e ht (Nat.min_le_left _ _))
        simp only
        split
        · exact hset.then (.raise t _)
        · exact hset

theorem upBytes_append (a b : List UpPacket) : upBytes (a ++ b) = upBytes a + upBytes b := by simp [upBytes]

theorem Moves.deliver (tag : Nat) (packets : List (List Byte)) : Moves R s (s.deliver t tag packets) := by
  unfold State.deliver
  simp only
  split
  · rename_i hl
    rw [← upBytes_append] at hl
    exact .then (Move.upBuffer s _ fun _ => hl).moves (.countUp tag _)
  · exact .refl s

theorem needOf_le (report : Nat) : needOf report ≤ 65535 := Nat.min_le_left _ _

theorem Moves.hear (tag report : Nat) : Moves R s (s.modEntry t tag fun e => e.hear (needOf report)) :=
  .modEntry fun e _ => (Entry.Rests.hear e (needOf_le report)).step _

theorem Moves.greet (tag report : Nat) (n : Round) : Moves R s (s.greet t tag (needOf report) n) := by
  have hactive : Moves R s (s.modEntry t tag fun e => (e.toActive (needOf report) n).getD e) :=
    .modEntryOpt fun _ _ h => Entry.Rests.toActive h (needOf_le report)
  unfold State.greet
  split
  · exact .refl s
  · split
    · simp only
      split
      · exact .then (hactive.then (.openMeters tag)) (.raise t _)
      · exact hactive.then (.raise t _)
    · exact .refl s

theorem Moves.acceptBurst {g : Grant} (ht : TagsInRange s → tagOk g.tag = true) (n : Round) (offset : Int) (report : Nat)
    (packets : List (List Byte)) : Moves R s (s.acceptBurst t n g offset report packets) := by
  have hdelay : Moves R s (s.correctDelay t g.tag offset) := .correctDelay ht offset
  unfold State.acceptBurst
  split
  · exact .refl s
  · split
    · exact .then (hdelay.then (.hear _ _)) (.deliver _ _)
    · split
      · exact .then (hdelay.then (.greet _ _ _)) (.deliver _ _)
      · exact .refl s
    · exact .then (hdelay.then (.hear _ _)) (.deliver _ _)
    · exact hdelay.then (.deliver _ _)
    · exact .refl s
    · exact .refl s

/-! ## Misses -/

theorem Moves.greetingMiss (tag : Nat) : Moves R s (s.greetingMiss t tag) := by
  unfold State.greetingMiss
  split
  · exact .refl s
  · rename_i e he
    split
    · rename_i f hf
      obtain ⟨serial, occupied, k, booked, capped, owed, body⟩ := e
      obtain rfl : body = .timed f := hf
      split
      · exact .refl s
      · rename_i hh
        split
        · refine .failEnrolment (fun e' he' => ?_) _ _
          obtain rfl := Option.some.inj (he.symm.trans he')
          simpa [Entry.hushed] using fun h => hh (.inl h)
        · rename_i hmiss
          refine .setEntry he (Entry.Rests.step (.withBody (e := ⟨_, _, _, _, _, _, .timed f⟩)
            (b := .timed { f with misses := f.misses + 1 }) nofun nofun (fun _ => ?_) id fun target hd => hd) _)
          simp only [Body.inRange, decide_eq_true_eq]
          omega
    · exact .refl s

/-- The occupant a grant was given to is the entry of its slot (R78). -/
theorem State.entry_of_grantee {g : Grant} {e : Entry} (h : s.grantee t g = some e) : s.entry t g.tag = some e := by
  unfold State.grantee at h
  split at h
  · split at h
    · rename_i he _
      rw [he, ← h]
    · cases h
  · cases h

/-- An ACTIVE entry takes another miss count, at most 16 (R82, R83). -/
theorem Moves.setMisses {tag n : Nat} {e : Entry} {f : Active} (he : s.entry t tag = some e) (hf : e.body = .active f)
    (hn : n ≤ 16) : Moves R s (s.setEntry t tag { e with body := .active { f with missCount := n } }) := by
  obtain ⟨serial, occupied, k, booked, capped, owed, body⟩ := e
  obtain rfl : body = .active f := hf
  refine .setEntry he (Entry.Rests.step (.withBody (e := ⟨_, _, _, _, _, _, .active f⟩)
    (b := .active { f with missCount := n }) nofun nofun (fun hr => ?_) id fun target hd => hd) _)
  simp only [Body.inRange, Bool.and_eq_true, decide_eq_true_eq] at hr ⊢
  exact ⟨⟨⟨hn, hr.1.1.2⟩, hr.1.2⟩, hr.2⟩

theorem Moves.damageBurst (g : Grant) : Moves R s (s.damageBurst t g) := by
  unfold State.damageBurst
  split
  · exact .refl s
  · rename_i e hg
    split
    · rename_i f hf
      exact .setMisses (State.entry_of_grantee hg) hf (Nat.zero_le _)
    · split
      · exact .greetingMiss _
      · exact .refl s
    · exact .refl s

theorem Moves.missGrant (g : Grant) : Moves R s (s.missGrant t g) := by
  unfold State.missGrant
  split
  · exact .refl s
  · rename_i e hg
    split
    · rename_i f hf
      split
      · exact .refl s
      · simp only
        split
        · exact .then (.then (.modEntryOpt fun _ _ => Entry.Rests.toSilent) (.raise t _)) (.leaveHunt _)
        · exact .setMisses (State.entry_of_grantee hg) hf (Nat.min_le_left _ _)
    · split
      · exact .greetingMiss _
      · exact .refl s
    · exact .refl s

/-! ## The judgement of grants, guards and idle stretches -/

theorem Moves.runOn (n : Round) (g : Grant) : Moves R s (s.runOn t n g) := .then (.damageBurst g) (.setMark _ _ _)

theorem Moves.burstEnds (n : Round) (b : Burst) : Moves R s (s.burstEnds t n b) := by
  unfold State.burstEnds
  split
  · split
    · exact .refl s
    · rename_i g hg
      simp only
      split
      · split
        · exact .runOn n g
        · split
          · exact .then (.acceptBurst (fun h => State.grantsOf_tagOk h (List.mem_of_find?_eq_some hg)) _ _ _ _) (.setMark _ _ _)
          · exact .then (.damageBurst g) (.setMark _ _ _)
          · split
            · exact .then (.missGrant g) (.setMark _ _ _)
            · exact .setMark _ _ _
      · exact .refl s
  · exact .refl s

theorem Moves.burstRunsOn (n : Round) (start : Int) : Moves R s (s.burstRunsOn t n start) := by
  unfold State.burstRunsOn
  split
  · split
    · exact .refl s
    · split
      · exact .runOn n _
      · exact .refl s
  · exact .refl s

theorem Moves.grantEnds (n : Round) (tag : Nat) (light : List LightSpan) : Moves R s (s.grantEnds t n tag light) := by
  unfold State.grantEnds
  split
  · simp only
    split
    · exact .refl s
    · split
      · exact .then (.missGrant _) (.setMark _ _ _)
      · split
        · exact .setMark _ _ _
        · split
          · exact .then (.missGrant _) (.setMark _ _ _)
          · exact .then (.missGrant _) (.setMark _ _ _)
      · exact .refl s
  · exact .refl s

theorem Moves.judgeGuard (n : Round) (g : Grant) (level : Nat) : Moves R s (s.judgeGuard t n g level) := by
  unfold State.judgeGuard
  split
  · exact .refl s
  · have hadd (b : Bool) : Moves R s (s.modEntry t g.tag fun e => e.addOutcome b) :=
      .modEntry fun e _ => (Entry.Rests.addOutcome e b).step _
    simp only
    split
    · exact .then (hadd _) (.judgeOverrun _ _ _)
    · exact hadd _

theorem Moves.guardEnds (n : Round) (tag : Nat) (begins : List Int) (samples : List Sample) :
    Moves R s (s.guardEnds t n tag begins samples) := by
  unfold State.guardEnds
  split
  · split
    · exact .refl s
    · split
      · split
        · exact .refl s
        · simp only
          split
          · exact .then (.setMark _ _ _) (.judgeGuard _ _ _)
          · exact .setMark _ _ _
      · exact .refl s
  · exact .refl s

theorem Tree.running_of_judges {x : Tree} (h : x.judges = true) : x.phase = .running := by
  simp only [Tree.judges, Bool.and_eq_true, decide_eq_true_eq] at h
  exact h.1

theorem Moves.judgeIdle (hp : (s.tree t).phase = .running) (n : Round) (first : Nat) (samples : List Sample) :
    Moves R s (s.judgeIdle t n first samples) := by
  unfold State.judgeIdle
  simp only
  split
  · exact .judgeStray hp _ _
  · exact .refl s

theorem Moves.idleEnds (samples : List Sample) : Moves R s (s.idleEnds t samples) := by
  unfold State.idleEnds
  simp only
  split
  · rename_i hj
    have hp := Tree.running_of_judges hj
    split
    · refine .then (.modChecker ?_) (.judgeIdle ?_ _ _ _)
      · exact fun h => h
      · simpa using hp
    · split
      · exact .refl s
      · refine .then (.modChecker ?_) (.judgeIdle ?_ _ _ _)
        · exact fun h => h
        · simpa using hp
  · exact .refl s

/-! ## Packets -/

theorem downBytes_append (a b : List DownPacket) : downBytes (a ++ b) = downBytes a + downBytes b := by simp [downBytes]

/-- A packet that fits joins the buffer of a tree that has room for it (R71). -/
theorem Moves.bufferPacket {p : DownPacket} (hf : BuffersWithin s → p.fits = true)
    (hl : downBytes (s.tree t).framer.buffer + p.payload.length ≤ bufferBytes) :
    Moves R s (s.modFramer t fun f => { f with buffer := f.buffer ++ [p] }) := by
  refine .modTree (.framer fun h => ⟨?_, fun x hx => ?_⟩)
  · rw [downBytes_append]
    simpa [downBytes] using hl
  · obtain hx | hx := List.mem_append.1 hx
    · exact (h.2.1 t).2 x hx
    · rw [List.mem_singleton.1 hx]
      exact hf h

theorem Moves.takeHeldPacket : Moves R s s.takeHeldPacket := by
  unfold State.takeHeldPacket
  split
  · exact .refl s
  · rename_i p hp
    simp only
    split
    · exact (Move.heldPacket s none fun _ => nofun).moves
    · split
      · rename_i hl
        exact .then (.bufferPacket (p := p.packet) (fun h => h.2.2 p hp) hl)
          (Move.heldPacket (s.modFramer p.tree _) none fun _ => nofun).moves
      · exact .refl s

theorem Moves.offerPacket (tag : Nat) (payload : List Byte) : Moves R s (s.offerPacket t tag payload) := by
  unfold State.offerPacket
  split
  · exact .refl s
  · simp only
    split
    · exact .refl s
    · rename_i hlen
      split
      · exact .refl s
      · split
        · exact .refl s
        · rename_i htag
          have hfits : DownPacket.fits { tag := tag, payload := payload } = true := by
            simp only [DownPacket.fits, Bool.and_eq_true, decide_eq_true_eq]
            exact ⟨⟨by simpa using htag, by omega⟩, by omega⟩
          split
          · rename_i hl
            exact .bufferPacket (fun _ => hfits) hl
          · exact (Move.heldPacket s _ fun _ p hp => by cases hp; exact hfits).moves

theorem Moves.deliverOldest : Moves R s s.deliverOldest := by
  unfold State.deliverOldest
  split
  · exact .refl s
  · rename_i p rest hb
    refine .then (Move.upBuffer s rest fun h => ?_).moves (Move.plain _ _ _ _ _ _).moves
    rw [hb] at h
    simp only [upBytes, List.map_cons, List.sum_cons] at h ⊢
    omega

/-! ## Dark windows -/

theorem levelOver_le (lo hi : Int) (samples : List Sample) : levelOver lo hi samples ≤ 4095 := by
  have hfold : ∀ (l : List Sample) (a : Nat), a ≤ 4095 →
      l.foldl (fun acc x => if lo ≤ x.time ∧ x.time < hi then max acc x.reading.toNat else acc) a ≤ 4095 := by
    intro l
    induction l with
    | nil => exact fun a h => h
    | cons x l ih =>
      intro a h
      refine ih _ ?_
      have := x.reading.isLt
      simp only
      split <;> omega
  exact hfold samples 0 (by omega)

theorem Moves.judgeBaseline (hp : (s.tree t).phase = .settling) : Moves R s (s.judgeBaseline t) := by
  have hcalm (h : SuspicionHeld s) : (s.tree t).light.suspicion = .clear := h t (by rw [hp]; nofun)
  unfold State.judgeBaseline
  simp only
  split
  · refine .then (.then (.modTree ?_) (.raise t _)) .takeHeldPacket
    exact
      { TreeStep.refl t with
        plans := List.filter_sublist
        tags := fun ⟨hplans, _, hrest⟩ =>
          ⟨fun r hr => hplans r (List.mem_of_mem_filter hr), nofun, hrest⟩
        suspicion := fun h _ => h (by rw [hp]; nofun)
        buffer := fun _ => ⟨Nat.zero_le _, nofun⟩ }
  · refine .then (.modTree ?_) (.raise t _)
    exact
      { TreeStep.refl t with
        range := fun _ h => by
          obtain ⟨hset, heng, hl⟩ := (Tree.inRange_iff _).1 h
          obtain ⟨hbase, hreg, hobs, hcad, hstr, -⟩ := (Light.inRange_iff _).1 hl
          exact (Tree.inRange_iff _).2 ⟨hset, heng, (Light.inRange_iff _).2 ⟨hbase, hreg, hobs, hcad, hstr, nofun⟩⟩
        suspicion := fun _ _ => rfl
        wakes := fun _ hs ⟨h, hh⟩ => by
          rw [hcalm hs] at hh
          cases hh }

theorem Moves.darkEnds (samples : List Sample) : Moves R s (s.darkEnds t samples) := by
  have htaken : Moves R s (s.modChecker t fun k => { k with darkTaken := true }) := .modChecker fun h => h
  unfold State.darkEnds
  simp only
  split
  · exact .refl s
  · split
    · exact .refl s
    · split
      · exact .refl s
      · split
        · exact .refl s
        · exact .refl s
        · rename_i hp
          refine htaken.then (.judgeDark ?_ _)
          simpa using hp
        · rename_i hp
          split
          · exact htaken
          · have hbase (level : Nat) (hl : level ≤ 4095) : Moves R (s.modChecker t fun k => { k with darkTaken := true })
                ((s.modChecker t fun k => { k with darkTaken := true }).modLight t fun l =>
                  { l with baseline := max l.baseline level }) :=
              .modLight_rest (fun _ h => by
                obtain ⟨⟨hb, hrest⟩, hreg⟩ := (Light.inRange_iff _).1 (Tree.light_inRange h)
                exact (Light.inRange_iff _).2 ⟨⟨max_le hb hl, hrest⟩, hreg⟩) rfl
            split
            · refine .then (htaken.then (hbase _ (levelOver_le _ _ _))) (.judgeBaseline ?_)
              simpa using hp
            · exact htaken.then (hbase _ (levelOver_le _ _ _))

end Sys2Proof.Machine
end

section
/-! PROOFS. The acts of a round start, of a call window and of a build (chapters 3, 4 and 6). -/

namespace Sys2Proof.Machine

variable {R N : Prop} {s : State} {t : TreeId}

/-! ## Frames -/

theorem Moves.sent {tag : Nat} {k : OrderKind} (hw : k ≠ .wake) (hd : k ≠ .drop) :
    Moves R s (s.modEntry t tag (Entry.sent k)) :=
  .modEntry fun e _ => (Entry.Rests.sent e hw fun h => absurd h hd).step _

theorem Moves.sendOrder (o : OrderPlace) : Moves R s (State.sendOrder t s o) := by
  cases o with
  | fence serial tag => exact .sent nofun nofun
  | drop serial tag =>
    simp only [State.sendOrder]
    split
    · exact .vacate t tag
    · rename_i hl
      refine .modEntry fun e he => (Entry.Rests.sent e (k := .drop) nofun fun _ h => hl ?_).step _
      simp only [State.slotState, he, h]
  | hush tags => exact .foldl (fun s tag => s.modEntry t tag (Entry.sent .hush)) (fun _ _ => .sent nofun nofun) tags s
  | wake tags => exact .foldl _ (fun _ _ => .modEntry fun e _ => (Entry.Rests.sentWake e).step _) _ s
  | release tag => exact .sent nofun nofun
  | assign serial tag e => exact .sent nofun nofun
  | probe serial tag => exact .sent nofun nofun
  | adjust tag e => exact .sent nofun nofun

@[simp] theorem State.testWatch_trees (n : Nat) : (s.testWatch n).trees = s.trees := by
  unfold State.testWatch State.fireWatch
  split
  · rfl
  · simp only
    split
    · split <;> rfl
    · rfl

@[simp] theorem State.testWatches_trees (tag : Nat) : (s.testWatches t tag).trees = s.trees := by
  unfold State.testWatches
  generalize s.watchesOn t tag = l
  induction l generalizing s with
  | nil => rfl
  | cons n l ih => rw [List.foldl_cons, ih, State.testWatch_trees]

@[simp] theorem State.countDown_trees (tag n : Nat) : (s.countDown t tag n).trees = s.trees := by
  rw [State.countDown, State.testWatches_trees]
  rfl

theorem packPayload_moves (room : Nat) (sent left : List DownPacket) (s : State) :
    Moves R s (packPayload t room sent left s).state := by
  induction left generalizing room sent s with
  | nil => exact .refl s
  | cons p rest ih =>
    unfold packPayload
    split
    · split
      · exact .then (.countDown _ _) (ih _ _ _)
      · exact .refl s
    · exact .then (.countWithheld _ _) (ih _ _ _)
    · exact ih _ _ _

/-- Packing leaves the back of the buffer, and no tree is touched by its counts (R72). -/
theorem packPayload_left (room : Nat) (sent left : List DownPacket) (s : State) :
    (packPayload t room sent left s).left <:+ left ∧ (packPayload t room sent left s).state.trees = s.trees := by
  induction left generalizing room sent s with
  | nil => exact ⟨List.suffix_refl _, rfl⟩
  | cons p rest ih =>
    unfold packPayload
    split
    · split
      · obtain ⟨hl, ht⟩ := ih (room - p.payload.length) (sent ++ [p]) (s.countDown t p.tag p.payload.length)
        exact ⟨hl.trans (List.suffix_cons _ _), ht.trans (State.countDown_trees _ _)⟩
      · exact ⟨List.suffix_refl _, rfl⟩
    · obtain ⟨hl, ht⟩ := ih room sent (s.countWithheld t p.tag p.payload.length)
      exact ⟨hl.trans (List.suffix_cons _ _), ht⟩
    · obtain ⟨hl, ht⟩ := ih room sent s
      exact ⟨hl.trans (List.suffix_cons _ _), ht⟩

theorem downBytes_sublist {a b : List DownPacket} (h : a.Sublist b) : downBytes a ≤ downBytes b :=
  (h.map _).sum_le_sum (by simp)

theorem Moves.beginFrame : Moves R s (s.beginFrame t) := by
  unfold State.beginFrame
  split
  · exact .modTree (.framer fun h => h.2.1 t)
  · rename_i r _
    simp only
    generalize (s.enrolmentPlace t).toList ++ generalPlaces (s.treeEntries t) (s.enrolmentPlace t) = orders
    have hsent : Moves R s (orders.foldl (State.sendOrder t) s) := .foldl _ (fun _ _ => .sendOrder _) _ s
    generalize orders.foldl (State.sendOrder t) s = s1 at hsent ⊢
    have hprobe : Moves R s1 (s1.modEngine t fun g => { g with bookedProbe := none }) :=
      .modEngine Tree.engine_inRange (.refl _) (fun h => h.2.2.2.1) fun _ => nofun
    generalize (s1.modEngine t fun g => { g with bookedProbe := none }) = s2 at hprobe ⊢
    refine .then (.then (hsent.then (hprobe.then (packPayload_moves _ _ _ s2))) (.modTree (.framer fun h => ?_))) .quietTest
    obtain ⟨hl, htrees⟩ := packPayload_left (t := t)
      (frameBytes - headLength r.grants.length (s.enrolmentPlace t) (generalPlaces (s.treeEntries t) (s.enrolmentPlace t)))
      [] (s2.tree t).framer.buffer s2
    have hb := h.2.1 t
    rw [State.tree_of_trees htrees] at hb
    exact ⟨(downBytes_sublist hl.sublist).trans hb.1, fun p hp => hb.2 p (hl.subset hp)⟩

/-- ROUND_START (R9, R12). -/
theorem Acts.beginRound : Acts R N s s.beginRound := by
  have hrest (s1 : State) : Moves R s1 (allFour.foldl State.beginFrame (allFour.foldl State.attributeRound s1)).takeHeldPacket :=
    .then (.then (.foldl _ (fun _ _ => .attributeRound) _ _) (.foldl _ (fun _ _ => .beginFrame) _ _)) .takeHeldPacket
  exact .head (.roll s) (hrest _).acts

/-! ## Call windows -/

theorem contractOk_zero {k : Contract} (h : k.inRange = true) : Contract.inRange { k with c := 0 } = true := by
  simp only [Contract.inRange, contractOk, Bool.and_eq_true, decide_eq_true_eq] at h ⊢
  omega

/-- A contract that the admission test gives is in its range (R36, R38). -/
theorem State.admissionTest_inRange {serial : Serial} {k : Contract} (h : RegistersInRange s)
    (hk : s.admissionTest serial t = some k) : k.inRange = true := by
  unfold State.admissionTest at hk
  split at hk
  · rename_i r hr
    have hrange := h.2.2.1 _ (Store.mem_of_read hr)
    split at hk
    · exact Option.some.inj hk ▸ hrange
    · split at hk
      · exact Option.some.inj hk ▸ hrange
      · cases hk
  · split at hk
    · obtain rfl := Option.some.inj hk
      obtain ⟨-, -, -, -, -, -, -, -, hlo, hhi⟩ := (Settings.inRange_iff _).1 ((Tree.inRange_iff _).1 (h.1 t)).1.1
      simp [Contract.inRange, contractOk, hlo, hhi]
    · cases hk

theorem State.clampContract_cases (k : Contract) :
    (s.clampContract t k).1 = k ∧ (k.c = 0 ∨ s.bookingSum t + (k.c + (s.tree t).settings.overhead) + (s.tree t).bookedCall +
      (s.tree t).bookedDark ≤ roundQuanta) ∨ (s.clampContract t k).1 = { k with c := 0 } := by
  unfold State.clampContract
  simp only
  split
  · rename_i h
    exact .inl ⟨rfl, h⟩
  · exact .inr rfl

/-- The entry of a serial that the roster holds, by its tree and tag (R34). -/
theorem State.entry_of_holder (hw : Store.Wf s.roster) {serial : Serial} {t' : TreeId} {tag : Nat} {e : Entry}
    (h : s.holderOf serial = some (t', tag, e)) : s.entry t' tag = some e ∧ tagOk tag = true := by
  unfold State.holderOf at h
  split at h
  · cases h
  · rename_i k e' hf
    split at h
    · cases h
    · rename_i t'' ht
      cases h
      have hk : slotTree k < 4 := by
        by_contra hn
        rw [treeOf_eq_none (by omega)] at ht
        cases ht
      have htree : slotTree k = t'.val := by
        rw [treeOf, dif_pos hk] at ht
        rw [← Option.some.inj ht]
      refine ⟨State.entry_of_mem hw (x := (k, e)) (List.mem_of_find?_eq_some hf) ?_, tagOk_slotTag k⟩
      simp only [slotOf, slotTag, slotTree] at htree ⊢
      omega

/-- A HEARD entry that re-enrols stands in the slot its serial was found in (R24, R49). -/
theorem Move.reEnrol {serial : Serial} {tag : Nat} {e e' : Entry} (h : s.holderOf serial = some (t, tag, e))
    (he : e.reEnrol s.round = some e') : Move R s (s.setEntry t tag e') :=
  .roster s _ fun hw => by
    have hentry := (State.entry_of_holder hw h).1
    rw [Store.write_eq_modify hw hentry]
    refine .map _ _ fun x hx => ?_
    by_cases hk : x.1 = slotOf t tag
    · obtain rfl : e = x.2 := by
        rw [State.entry_of_mem hw hx hk] at hentry
        exact (Option.some.inj hentry).symm
      simp only [if_pos hk]
      exact ⟨trivial, (Entry.Rests.reEnrol he).step _⟩
    · simp only [if_neg hk]
      exact ⟨trivial, .refl _ _⟩

/-- No change enters or leaves the queue, and no slot of the tree is vacated. -/
def SlotsHeld (t : TreeId) (s s' : State) : Prop :=
  s'.queue = s.queue ∧ s'.round = s.round ∧ ∀ tag, s'.entry t tag = none → s.entry t tag = none

theorem SlotsHeld.setEntry (t' : TreeId) (tag : Nat) (e : Entry) : SlotsHeld t s (s.setEntry t' tag e) := by
  refine ⟨rfl, rfl, fun tag' h => ?_⟩
  by_cases hk : slotOf t tag' = slotOf t' tag
  · rw [State.entry, hk] at h
    exact absurd (h.symm.trans (Store.read_write_self _ _ _)) nofun
  · rwa [State.setEntry_entry_ne _ _ hk] at h

/-- A clean announcement: moves, or a new home and a notice (R48, R49, R51). -/
theorem State.announce_cases (s : State) (t : TreeId) (serial : Serial) (token : Token) :
    ((∀ R, Moves R s (s.announce t serial token)) ∧ SlotsHeld t s (s.announce t serial token)) ∨
      ∃ (tag : Nat) (k : Contract) (d : Detail), s.lowestVacant t = some tag ∧ s.holderOf serial = none ∧
        (RegistersInRange s → k.inRange = true) ∧
        (k.c = 0 ∨ s.bookingSum t + (k.c + (s.tree t).settings.overhead) + (s.tree t).bookedCall + (s.tree t).bookedDark ≤
          roundQuanta) ∧
        s.announce t serial token = (s.setEntry t tag (newHeard serial s.round k)).raise t d := by
  have hraise (d : Detail) : (∀ R, Moves R s (s.raise t d)) ∧ SlotsHeld t s (s.raise t d) :=
    ⟨fun R => .raise t d, rfl, rfl, fun _ => id⟩
  unfold State.announce
  split
  · rename_i t' tag e hh
    left
    split
    · rename_i e' he
      split at he
      · rename_i ht
        subst ht
        obtain ⟨hq, hr, hv⟩ := SlotsHeld.setEntry (s := s) (t := t') t' tag e'
        exact ⟨fun R => .then (Move.reEnrol hh he).moves (.raise _ _), hq, hr, hv⟩
      · cases he
    · exact hraise _
  · rename_i hh
    split
    · exact .inl (hraise _)
    · rename_i k hk
      split
      · exact .inl (hraise _)
      · rename_i tag hv
        refine .inr ⟨tag, (s.clampContract t k).1, _, hv, hh, fun h => ?_, ?_, rfl⟩
        · have hrange := State.admissionTest_inRange h hk
          obtain ⟨hc, -⟩ | hc := State.clampContract_cases (s := s) (t := t) k <;> rw [hc]
          · exact hrange
          · exact contractOk_zero hrange
        · obtain ⟨hc, hb⟩ | hc := State.clampContract_cases (s := s) (t := t) k <;> rw [hc]
          · exact hb
          · exact .inl rfl

/-- What the end of a call window can do: moves that vacate no slot of its tree, and a new home there. -/
inductive Home (R : Prop) (t : TreeId) : State → State → Prop
  | moves {s s' : State} (h : Moves R s s') (hs : SlotsHeld t s s') : Home R t s s'
  | newHome (s : State) (tag : Nat) (serial : Serial) (k : Contract) (hv : s.lowestVacant t = some tag)
      (hs : s.holderOf serial = none) (hr : RegistersInRange s → k.inRange = true)
      (hb : k.c = 0 ∨ s.bookingSum t + (k.c + (s.tree t).settings.overhead) + (s.tree t).bookedCall + (s.tree t).bookedDark ≤
        roundQuanta) :
      Home R t s (s.setEntry t tag (newHeard serial s.round k))

/-- A chain of them. -/
abbrev Homes (R : Prop) (t : TreeId) : State → State → Prop := Relation.ReflTransGen (Home R t)

theorem Homes.acts {s s' : State} (h : Homes R t s s') : Acts R True s s' := by
  induction h with
  | refl => exact .refl
  | tail _ h ih =>
    cases h with
    | moves h _ => exact ih.trans h.acts
    | newHome tag serial k hv hs hr hb => exact ih.tail (.newHome _ t tag serial k trivial hv hs hr hb)

theorem Homes.announce (serial : Serial) (token : Token) : Homes R t s (s.announce t serial token) := by
  obtain ⟨h, hs⟩ | ⟨tag, k, d, hv, hh, hr, hb, he⟩ := s.announce_cases t serial token
  · exact .single (.moves (h R) hs)
  · rw [he]
    exact .head (.newHome s tag serial k hv hh hr hb) (.single (.moves (.raise t d) ⟨rfl, rfl, fun _ => id⟩))

theorem Homes.callWindow (light : List Burst) : Homes R t s (s.callWindow t light) := by
  unfold State.callWindow
  split
  · exact .refl
  · simp only
    generalize (List.filterMap (cleanBurst _ 2) (windowStretches _ light)) = clean
    have hfold : ∀ (l : List Burst) (s1 : State), Homes R t s1 (l.foldl (fun acc b => acc.announce t b.serial b.token) s1) := by
      intro l
      induction l with
      | nil => exact fun _ => .refl
      | cons b l ih => exact fun s1 => (Homes.announce b.serial b.token).trans (ih _)
    have hcollisions (n : Nat) : Home R t s (s.addCollisions t n) := .moves (.addCollisions n) ⟨rfl, rfl, fun _ => id⟩
    have hrelease (u : State) : Home R t u (u.releaseWindow t s.round) := .moves (.releaseWindow _) ⟨rfl, rfl, fun _ => id⟩
    exact (Relation.ReflTransGen.trans (.single (hcollisions _)) (hfold _ _)).tail (hrelease _)

end Sys2Proof.Machine
end

section
/-! PROOFS. The acts of a build (chapter 6): what the stages keep of every candidate, and the plan, entries and window that a build
adds. -/

namespace Sys2Proof.Machine

variable {R N : Prop} {s : State} {t : TreeId}

/-! ## What the stages keep of every candidate -/

/-- A property of a candidate that no stage of a build takes away. -/
structure Cand.Lasting (overhead : Nat) (P : Cand → Prop) : Prop where
  give : ∀ (x : Cand) (prior : Nat) (polled : Bool), P x → P { x with prior := prior, polled := polled }
  spend : ∀ (x : Cand) (extra credit : Nat), credit ≤ x.credit → P x → P { x with extra := extra, credit := credit }
  share : ∀ (x : Cand) (excess weights : Nat), P x → P (x.share overhead excess weights)

section
variable {P : Cand → Prop} {b : BuildSetting}

theorem stageA_all (hP : Cand.Lasting b.overhead P) (n : Nat) (xs : List Cand) (h : ∀ x ∈ xs, P x) :
    ∀ y ∈ (stageA b.overhead n xs).1, P y := by
  induction xs generalizing n with
  | nil => exact nofun
  | cons x rest ih =>
    have hrest := fun n => ih n fun y hy => h y (List.mem_cons_of_mem _ hy)
    have hx := h x List.mem_cons_self
    unfold stageA
    split
    · exact List.forall_mem_cons.2 ⟨hP.give x 1 x.polled hx, hrest _⟩
    · exact List.forall_mem_cons.2 ⟨hx, hrest _⟩

theorem stageB_all (hP : Cand.Lasting b.overhead P) (n : Nat) (xs : List Cand) (h : ∀ x ∈ xs, P x) :
    ∀ y ∈ (stageB b.overhead n xs).1, P y := by
  induction xs generalizing n with
  | nil => exact nofun
  | cons x rest ih =>
    have hrest := fun n => ih n fun y hy => h y (List.mem_cons_of_mem _ hy)
    have hx := h x List.mem_cons_self
    unfold stageB
    simp only
    generalize (if x.greeting = false ∧ 0 < x.c then _ else 0) = g
    split
    · exact List.forall_mem_cons.2 ⟨hP.give x _ x.polled hx, hrest _⟩
    · exact List.forall_mem_cons.2 ⟨hx, hrest _⟩

theorem stageC_all (hP : Cand.Lasting b.overhead P) (n : Nat) (xs : List Cand) (h : ∀ x ∈ xs, P x) :
    ∀ y ∈ (stageC b n xs).1, P y := by
  induction xs generalizing n with
  | nil => exact nofun
  | cons x rest ih =>
    have hrest := fun n => ih n fun y hy => h y (List.mem_cons_of_mem _ hy)
    have hx := h x List.mem_cons_self
    unfold stageC
    split
    · exact List.forall_mem_cons.2 ⟨hP.give x 1 true hx, hrest _⟩
    · exact List.forall_mem_cons.2 ⟨hx, hrest _⟩

theorem stageD_all (hP : Cand.Lasting b.overhead P) (n : Nat) (xs : List Cand) (h : ∀ x ∈ xs, P x) :
    ∀ y ∈ (stageD b n xs).1, P y := by
  induction xs generalizing n with
  | nil => exact nofun
  | cons x rest ih =>
    have hrest := fun n => ih n fun y hy => h y (List.mem_cons_of_mem _ hy)
    have hx := h x List.mem_cons_self
    unfold stageD
    simp only
    generalize dropSmall _ _ _ = g
    generalize (if x.prior = 0 then _ else _) = o
    split
    · exact List.forall_mem_cons.2 ⟨hP.spend x _ _ (Nat.sub_le _ _) hx, hrest _⟩
    · exact List.forall_mem_cons.2 ⟨hx, hrest _⟩

theorem stageE_all (hP : Cand.Lasting b.overhead P) (n : Nat) (xs : List Cand) (h : ∀ x ∈ xs, P x) :
    ∀ y ∈ (stageE b n xs).1, P y := by
  induction xs generalizing n with
  | nil => exact nofun
  | cons x rest ih =>
    have hrest := fun n => ih n fun y hy => h y (List.mem_cons_of_mem _ hy)
    have hx := h x List.mem_cons_self
    unfold stageE
    simp only
    generalize dropSmall _ _ _ = g
    generalize (if x.prior + x.extra = 0 then _ else _) = o
    split
    · exact List.forall_mem_cons.2 ⟨hP.spend x _ _ (Nat.le_refl _) hx, hrest _⟩
    · exact List.forall_mem_cons.2 ⟨hx, hrest _⟩

theorem settleCredit_all (hP : Cand.Lasting b.overhead P) {xs : List Cand} (h : ∀ x ∈ xs, P x) :
    ∀ y ∈ xs.map Cand.settleCredit, P y := by
  intro y hy
  obtain ⟨x, hx, rfl⟩ := List.mem_map.1 hy
  unfold Cand.settleCredit
  split
  · exact hP.spend x x.extra 0 (Nat.zero_le _) (h x hx)
  · exact h x hx

theorem mem_walkOrder {lead : Nat} {xs : List Cand} {y : Cand} (h : y ∈ walkOrder lead xs) : y ∈ xs := by
  obtain h | h := List.mem_append.1 h <;> exact List.mem_of_mem_filter h

theorem mem_putBack {walked xs : List Cand} {y : Cand} (h : y ∈ putBack walked xs) : y ∈ walked ∨ y ∈ xs := by
  obtain ⟨x, hx, rfl⟩ := List.mem_map.1 h
  cases hf : walked.find? fun y => y.tag = x.tag with
  | none => exact .inr hx
  | some z => exact .inl (List.mem_of_find?_eq_some hf)

/-- The walk of stage D is of candidates that shared the excess (R100 to R102). -/
theorem walk_all (hP : Cand.Lasting b.overhead P) {xs : List Cand} (h : ∀ x ∈ xs, P x) (lead excess weights : Nat) :
    ∀ y ∈ walkOrder lead (((xs.map Cand.settleCredit).filter Cand.eligible).map (Cand.share b.overhead excess weights)), P y := by
  intro y hy
  obtain ⟨x, hx, rfl⟩ := List.mem_map.1 (mem_walkOrder hy)
  exact hP.share x _ _ (settleCredit_all hP h x (List.mem_of_mem_filter hx))

theorem shareExcess_all (hP : Cand.Lasting b.overhead P) (lead excess : Nat) {xs : List Cand} (h : ∀ x ∈ xs, P x) :
    ∀ y ∈ (shareExcess b lead excess xs).1, P y := by
  unfold shareExcess
  simp only
  split
  · exact settleCredit_all hP h
  · intro y hy
    obtain hy | hy := mem_putBack hy
    · exact stageE_all hP _ _ (stageD_all hP _ _ (walk_all hP h lead excess _)) y hy
    · exact settleCredit_all hP h y hy

theorem runStages_all (hP : Cand.Lasting b.overhead P) (lead capacity : Nat) {xs : List Cand} (h : ∀ x ∈ xs, P x) :
    ∀ y ∈ (runStages b lead capacity xs).1, P y :=
  shareExcess_all hP _ _ (stageC_all hP _ _ (stageB_all hP _ _ (stageA_all hP _ _ h)))

end

/-- No stage changes a candidate's tag. -/
theorem Cand.lasting_tagOk (overhead : Nat) : Cand.Lasting overhead fun x => tagOk x.tag = true :=
  ⟨fun _ _ _ => id, fun _ _ _ _ => id, fun _ _ _ => id⟩

/-- Credit stays within 482,048: a share is limited to 256 times what one burst of the room could spend (R101). -/
theorem Cand.lasting_credit {overhead : Nat} (h : overhead ≤ 8) :
    Cand.Lasting overhead fun x => x.peak ≤ 1875 ∧ x.credit ≤ 482048 where
  give _ _ _ := id
  spend _ _ _ hc hx := ⟨hx.1, hc.trans hx.2⟩
  share x _ _ hx := by
    refine ⟨hx.1, (Nat.min_le_left _ _).trans ?_⟩
    have : x.belowPeak ≤ x.peak := Nat.sub_le _ _
    omega

theorem leadAfter_tag {lead : Nat} {order : List Cand} (hl : 1 ≤ lead ∧ lead ≤ 128) (h : ∀ x ∈ order, tagOk x.tag = true) :
    1 ≤ leadAfter lead order ∧ leadAfter lead order ≤ 128 := by
  cases order with
  | nil => exact hl
  | cons x rest =>
    have := tagOk_eq_true_iff.1 (h x List.mem_cons_self)
    simp only [leadAfter]
    split <;> omega

/-- The lead pointer stays a tag (R102). -/
theorem runStages_lead (b : BuildSetting) {lead : Nat} (capacity : Nat) {xs : List Cand} (hl : 1 ≤ lead ∧ lead ≤ 128)
    (h : ∀ x ∈ xs, tagOk x.tag = true) :
    1 ≤ (runStages b lead capacity xs).2 ∧ (runStages b lead capacity xs).2 ≤ 128 := by
  have hP := Cand.lasting_tagOk b.overhead
  have hc := fun n m => stageC_all hP m _ (stageB_all hP n _ (stageA_all hP capacity _ h))
  unfold runStages shareExcess
  simp only
  split
  · exact hl
  · exact leadAfter_tag hl (walk_all hP (hc _ _) lead _ _)

theorem placeGrants_tagOk (overhead start : Nat) {xs : List Cand} (h : ∀ x ∈ xs, tagOk x.tag = true) :
    ∀ g ∈ placeGrants overhead start xs, tagOk g.tag = true := by
  induction xs generalizing start with
  | nil => exact nofun
  | cons x rest ih =>
    have hrest := fun n => ih n fun y hy => h y (List.mem_cons_of_mem _ hy)
    unfold placeGrants
    split
    · exact hrest _
    · exact List.forall_mem_cons.2 ⟨h x List.mem_cons_self, hrest _⟩

/-- The candidates of a build of a tree (R95). -/
def State.candidatesOf (s : State) (t : TreeId) : List Cand := (s.treeEntries t).filterMap fun y => candidateOf y.1 y.2

theorem candidateOf_tag {tag : Nat} {e : Entry} {x : Cand} (h : candidateOf tag e = some x) : x.tag = tag := by
  unfold candidateOf at h
  split at h
  · cases h
  · split at h
    · split at h <;> cases h
      rfl
    · cases h
      rfl
    · cases h

theorem State.treeEntries_tagOk {y : Nat × Entry} (h : y ∈ s.treeEntries t) : tagOk y.1 = true := by
  obtain ⟨k, -, -, hk⟩ := State.mem_treeEntries.1 h
  rw [← hk]
  exact tagOk_slotTag k

theorem State.candidatesOf_tagOk : ∀ x ∈ s.candidatesOf t, tagOk x.tag = true := by
  intro x hx
  obtain ⟨y, hy, he⟩ := List.mem_filterMap.1 hx
  rw [candidateOf_tag he]
  exact State.treeEntries_tagOk hy

theorem Contract.inRange_iff (k : Contract) :
    k.inRange = true ↔ k.c ≤ 1875 ∧ k.c ≤ k.p ∧ 1 ≤ k.p ∧ k.p ≤ 1875 ∧ 1 ≤ k.w ∧ k.w ≤ 255 := by
  simp only [Contract.inRange, contractOk, Bool.and_eq_true, decide_eq_true_eq]
  tauto

theorem candidateOf_credit {tag : Nat} {e : Entry} {x : Cand} (h : candidateOf tag e = some x) (he : e.inRange = true) :
    x.peak ≤ 1875 ∧ x.credit ≤ 482048 := by
  simp only [Entry.inRange_eq, Bool.and_eq_true, Contract.inRange_iff, decide_eq_true_eq] at he
  obtain ⟨⟨⟨hc, -, -, hp, -⟩, -⟩, hbody⟩ := he
  unfold candidateOf at h
  split at h
  · cases h
  · split at h
    · split at h
      · cases h
      · cases h
        exact ⟨Nat.zero_le _, Nat.zero_le _⟩
    · rename_i f hf
      cases h
      rw [hf] at hbody
      simp only [Body.inRange, Bool.and_eq_true, decide_eq_true_eq] at hbody
      refine ⟨?_, hbody.1.2⟩
      simp only
      split
      · exact hc
      · exact hp
    · cases h

theorem State.candidatesOf_credit (h : ∀ x ∈ s.roster, x.2.inRange = true) : ∀ x ∈ s.candidatesOf t, x.peak ≤ 1875 ∧ x.credit ≤ 482048 := by
  intro x hx
  obtain ⟨y, hy, he⟩ := List.mem_filterMap.1 hx
  obtain ⟨k, hk, -, -⟩ := State.mem_treeEntries.1 hy
  exact candidateOf_credit he (h (k, y.2) hk)

/-! ## The build -/

/-- What a build makes of an entry keeps all but its need, credit and last granted round (R104). -/
theorem EntryStep.update {k : Nat} (e : Entry) (y : Cand) (n : Round) (h : RegistersInRange s → y.credit ≤ 482048) :
    EntryStep s k e (y.update n e) := by
  obtain ⟨serial, occupied, contract, booked, capped, owed, body⟩ := e
  cases body with
  | active f =>
    refine ⟨⟨rfl, rfl, rfl, rfl, id⟩, fun hs hr => ?_, fun _ _ _ _ => id, fun _ _ _ => id⟩
    simp only [Entry.inRange_eq, Cand.update, Body.inRange, Bool.and_eq_true, decide_eq_true_eq] at hr ⊢
    obtain ⟨hfields, ⟨⟨hmiss, hneed⟩, -⟩, hhist⟩ := hr
    exact ⟨hfields, ⟨⟨hmiss, (Nat.sub_le _ _).trans hneed⟩, h hs⟩, hhist⟩
  | _ => exact .refl _ _

theorem planWindow_kind {chosen : Option WindowAnswer} {opening width : Nat} {w : PlanWindow}
    (h : planWindow chosen opening width = some w) : chosen = some (.window w.kind) := by
  unfold planWindow at h
  split at h
  · cases h
    rfl
  · cases h

theorem Acts.offerWindow {w : PlanWindow} (h : (s.tree t).engine.chosen = some (.window w.kind)) (n : Round) :
    Acts R N s (s.offerWindow t n w) := by
  unfold State.offerWindow
  split
  · exact .single (.window s t { round := n, kind := .call, opening := w.opening, width := w.width } fun _ => nofun)
  · rename_i tag hk
    rw [hk] at h
    split
    · exact .refl
    · rename_i e _
      have hwindow : Acts R N s (s.modEngine t fun g => { g with windows := g.windows ++
          [{ round := n, kind := .probe tag e.serial e.occupied, opening := w.opening, width := w.width }] }) :=
        .single (.window s t _ fun hs tag' _ _ hw => by
          cases hw
          exact (hs t).2.2.2.1 tag h)
      have hprobe : Moves R (s.modEngine t fun g => { g with windows := g.windows ++
          [{ round := n, kind := .probe tag e.serial e.occupied, opening := w.opening, width := w.width }] })
          ((s.modEngine t fun g => { g with windows := g.windows ++
          [{ round := n, kind := .probe tag e.serial e.occupied, opening := w.opening, width := w.width }] }).modEngine t
            fun g => { g with bookedProbe := some (s.round + 1, tag) }) :=
        .modEngine Tree.engine_inRange (.refl _) (fun h => h.2.2.2.1) fun h' b hb => by
          cases hb
          refine h'.2.2.2.1 tag ?_
          rw [State.modEngine_tree]
          exact h
      have hmerge : ∀ f g : Engine → Engine, (s.modEngine t f).modEngine t g = s.modEngine t fun x => g (f x) := fun f g => by
        simp [State.modEngine, State.modTree, State.setTree, State.tree]
      rw [hmerge] at hprobe
      exact (hwindow.trans hprobe.acts).trans
        (Moves.modEntry fun e _ => (Entry.Rests.owe e (k := .probe) nofun nofun).step _).acts

/-- The dark window of the plan being built, as the light supervisor answered (R126). -/
def State.darkWidth (s : State) (t : TreeId) : Option Nat :=
  if (s.tree t).light.darkAnswer = some true then some (s.tree t).settings.wDark else none

/-- The call or probe window of the plan being built, as the enrolment engine answered (R46). -/
def State.chosenWindow (s : State) (t : TreeId) : Option PlanWindow :=
  planWindow (s.tree t).engine.chosen ((s.darkWidth t).getD 0) (s.tree t).settings.wCall

/-- The quanta that the windows of the plan being built take (R10). -/
def State.windowQuanta (s : State) (t : TreeId) : Nat :=
  (s.darkWidth t).getD 0 + (match s.chosenWindow t with | some w => w.width | none => 0)

/-- The settings of a build (R93). -/
def State.buildSetting (s : State) (t : TreeId) : BuildSetting :=
  { overhead := (s.tree t).settings.overhead, minBurst := (s.tree t).settings.minBurst, poll := (s.tree t).settings.poll,
    target := s.round + 2 }

/-- What stages A to E give the candidates of a tree, and the lead pointer after them (R96 to R103). -/
def State.staged (s : State) (t : TreeId) : List Cand × Nat :=
  runStages (s.buildSetting t) (s.tree t).lead (roundQuanta - s.windowQuanta t) (s.candidatesOf t)

/-- The plan record of a build (R106). -/
def State.builtRecord (s : State) (t : TreeId) : PlanRecord :=
  { round := s.round + 2, settling := false, settlingNo := 0, dark := s.darkWidth t, window := s.chosenWindow t,
    grants := placeGrants (s.tree t).settings.overhead (s.windowQuanta t) (s.staged t).1,
    marks := entryMarks (s.treeEntries t) }

/-- A build up to its window: the record, the lead pointer, and what becomes of the candidates' entries (R104, R106). -/
def State.placed (s : State) (t : TreeId) : State :=
  (s.modTree t fun x => { x with plans := x.plans ++ [s.builtRecord t], lead := (s.staged t).2 }).modTreeEntries t fun tag e =>
    match (s.staged t).1.find? fun y => y.tag = tag && !y.greeting with
    | some y => y.update (s.round + 2) e
    | none => e

theorem State.buildFull_of_none (h : s.chosenWindow t = none) : s.buildFull t = s.placed t := by
  show (match s.chosenWindow t with | none => s.placed t | some w => (s.placed t).offerWindow t (s.round + 2) w) = s.placed t
  rw [h]

theorem State.buildFull_of_some {w : PlanWindow} (h : s.chosenWindow t = some w) :
    s.buildFull t = (s.placed t).offerWindow t (s.round + 2) w := by
  show (match s.chosenWindow t with | none => s.placed t | some w => (s.placed t).offerWindow t (s.round + 2) w) = _
  rw [h]

theorem State.staged_tagOk : ∀ x ∈ (s.staged t).1, tagOk x.tag = true :=
  runStages_all (b := s.buildSetting t) (Cand.lasting_tagOk _) _ _ State.candidatesOf_tagOk

theorem Acts.placed : Acts R N s (s.placed t) := by
  have hplan : Acts R N s
      (s.modTree t fun x => { x with plans := x.plans ++ [s.builtRecord t], lead := (s.staged t).2 }) :=
    .single (.plan s t { s.tree t with lead := (s.staged t).2 } (s.builtRecord t)
      { TreeStep.refl t with
        range := fun _ h => by
          obtain ⟨⟨hset, hcount, hlead, hbooked⟩, hrest⟩ := (Tree.inRange_iff _).1 h
          exact (Tree.inRange_iff _).2
            ⟨⟨hset, hcount, runStages_lead _ _ hlead State.candidatesOf_tagOk, hbooked⟩, hrest⟩ }
      (placeGrants_tagOk _ _ State.staged_tagOk))
  refine hplan.trans (Moves.modTreeEntries fun k e _ => ?_).acts
  split
  · rename_i y hy
    refine .update e y _ fun h => ?_
    have ho : (s.tree t).settings.overhead ≤ 8 := by
      have := h.1 t
      rw [State.modTree_tree] at this
      exact ((Settings.inRange_iff _).1 ((Tree.inRange_iff _).1 this).1.1).1.2.2.2
    exact (runStages_all (b := s.buildSetting t) (Cand.lasting_credit ho) _ _ (State.candidatesOf_credit h.2.1) y
      (List.mem_of_find?_eq_some hy)).2
  · exact .refl _ _

theorem Acts.buildFull : Acts R N s (s.buildFull t) := by
  cases hw : s.chosenWindow t with
  | none => exact State.buildFull_of_none hw ▸ Acts.placed
  | some w =>
    rw [State.buildFull_of_some hw]
    refine Relation.ReflTransGen.trans Acts.placed (Acts.offerWindow ?_ _)
    have : ((s.placed t).tree t).engine = (s.tree t).engine := by
      rw [State.placed, State.tree_of_trees (State.modTreeEntries_trees _ t _), State.modTree_tree]
    rw [this]
    exact planWindow_kind hw

theorem Acts.buildSettling : Acts R N s (s.buildSettling t) :=
  .single (.plan s t { s.tree t with settlingCount := min 16 ((s.tree t).settlingCount + 1) } _
    { TreeStep.refl t with
      range := fun _ h => by
        obtain ⟨⟨hset, -, hlead, hbooked⟩, hrest⟩ := (Tree.inRange_iff _).1 h
        exact (Tree.inRange_iff _).2 ⟨⟨hset, Nat.min_le_left _ _, hlead, hbooked⟩, hrest⟩ }
    nofun)

/-- A build forgets the answers it was given (R43, R126). -/
def State.forgetAnswers (s : State) (t : TreeId) : State :=
  s.modTree t fun x =>
    { x with engine := { x.engine with chosen := none }, light := { x.light with darkAnswer := none } }

theorem Moves.forgetAnswers : Moves R s (s.forgetAnswers t) :=
  .modTree
    { TreeStep.refl t with
      tags := fun h => ⟨h.1, h.2.1, h.2.2.1, nofun, h.2.2.2.2⟩ }

theorem Acts.buildPlan : Acts R N s (s.buildPlan t) := by
  unfold State.buildPlan
  split
  · exact .refl
  · exact .refl
  · exact .buildSettling
  · exact ((Moves.then .scheduleAct .cadenceAct).acts.trans Acts.buildFull).trans Moves.forgetAnswers.acts

end Sys2Proof.Machine
end

section
/-! PROOFS. The moves of the requests and of the slots of a port (chapters 1, 2 and 7 to 11). -/

namespace Sys2Proof.Machine

variable {R : Prop} {s : State} {t : TreeId} {p : Port}

/-! ## Trees -/

theorem Moves.startTree (hp : (s.tree t).phase ≠ .running) : Moves R s (s.startTree t) := by
  refine .then (.modTree ?_) (.modTreeEntries fun k e _ => ?_)
  · exact
      { TreeStep.refl t with
        range := fun _ h => by
          obtain ⟨⟨hset, -, hlead, hbooked⟩, heng, hl⟩ := (Tree.inRange_iff _).1 h
          obtain ⟨⟨-, hlim⟩, hreg, -, -, hstr, -⟩ := (Light.inRange_iff _).1 hl
          exact (Tree.inRange_iff _).2 ⟨⟨hset, Nat.zero_le _, hlead, hbooked⟩, ⟨Nat.zero_le _, heng.2⟩,
            (Light.inRange_iff _).2 ⟨⟨Nat.zero_le _, hlim⟩, hreg, Nat.zero_le _, Nat.zero_le _, hstr, nofun⟩⟩
        windows := List.nil_sublist _
        tags := fun h => ⟨h.1, h.2.1, nofun, nofun, nofun⟩
        suspicion := fun _ _ => rfl
        wakes := fun _ hs ⟨h, hh⟩ => by
          rw [hs t hp] at hh
          cases hh }
  · split
    · exact (Entry.Rests.owe e (k := .fence) nofun nofun).step k
    · exact .refl k e

theorem Moves.takeStartTree (q : Byte) (n : Nat) : Moves R s (s.takeStartTree p q n) := by
  unfold State.takeStartTree
  split
  · exact .refuse p q _
  · split
    · exact .refuse p q _
    · exact .refuse p q _
    · rename_i hn
      exact .then (.startTree hn) (.reply p q _ _)

/-- No entry of a stopped tree is hushed (R7). -/
theorem stoppedRoster_hushed {ros : Store Entry} {x : Nat × Entry} (h : x ∈ stoppedRoster t ros) (hk : slotTree x.1 = t.val) :
    x.2.hushed = false := by
  obtain ⟨y, -, hy⟩ := List.mem_filterMap.1 h
  split at hy
  · obtain ⟨e, he, rfl⟩ := Option.map_eq_some_iff.1 hy
    exact (Entry.Rests.stopped he).2
  · rename_i hn
    cases hy
    exact absurd hk hn

theorem Moves.stopTree : Moves R s (s.stopTree t) := by
  have hroster : Moves R s { s with roster := stoppedRoster t s.roster } :=
    .keepEntries _ fun x y hy => by
      split at hy
      · obtain ⟨e, he, rfl⟩ := Option.map_eq_some_iff.1 hy
        exact ⟨rfl, (Entry.Rests.stopped he).1⟩
      · cases hy
        exact ⟨rfl, .refl _⟩
  refine .then (.then (hroster.then (.filterWatches _)) (.modTree ?_)) .takeHeldPacket
  exact
    { TreeStep.refl (s := { s with roster := stoppedRoster t s.roster, watches := _ }) t with
      range := fun _ h => by
        obtain ⟨⟨hset, hcount, -, hbooked⟩, heng, hl⟩ := (Tree.inRange_iff _).1 h
        obtain ⟨hbase, hreg, -, -, hstr, -⟩ := (Light.inRange_iff _).1 hl
        exact (Tree.inRange_iff _).2 ⟨⟨hset, hcount, ⟨Nat.le_refl 1, Nat.le_add_left 1 127⟩, hbooked⟩, ⟨Nat.zero_le _, heng.2⟩,
          (Light.inRange_iff _).2 ⟨hbase, hreg, Nat.zero_le _, Nat.zero_le _, hstr, nofun⟩⟩
      plans := List.filter_sublist
      windows := List.nil_sublist _
      tags := fun h => ⟨fun r hr => h.1 r (List.mem_of_mem_filter hr), nofun, nofun, nofun, nofun⟩
      suspicion := fun _ _ => rfl
      wakes := fun _ _ _ _ y hy hh => by
        obtain ⟨k, hm, hk, -⟩ := State.mem_treeEntries.1 hy
        rw [stoppedRoster_hushed (x := (k, y.2)) hm hk] at hh
        cases hh
      buffer := fun _ => ⟨Nat.zero_le _, nofun⟩ }

theorem Moves.takeStopTree (q : Byte) (n : Nat) : Moves R s (s.takeStopTree p q n) := by
  unfold State.takeStopTree
  split
  · exact .refuse p q _
  · split
    · exact .refuse p q _
    · exact .then .stopTree (.reply p q _ _)

/-- A setting that its range test passes is in range (section 1.5). -/
theorem Settings.put_inRange {x : Settings} {name : SettingName} {v : Nat} (hx : x.inRange = true)
    (hv : settingInRange x name v = true) : (x.put name v).inRange = true := by
  obtain ⟨⟨htarget, hnear, hover⟩, hburst, hcall, hkc, hdark, hkd, hpoll, hsil, hpeak⟩ := (Settings.inRange_iff x).1 hx
  rw [Settings.inRange_iff]
  cases name <;> simp only [settingInRange, Bool.and_eq_true, decide_eq_true_eq] at hv <;>
    simp only [Settings.put] <;> omega

theorem Settings.put_target {x : Settings} {name : SettingName} (h : name ≠ .target) (v : Nat) :
    (x.put name v).target = x.target := by
  cases name <;> first | rfl | exact absurd rfl h

theorem Settings.put_overhead {x : Settings} {name : SettingName} (h : name ≠ .overhead) (v : Nat) :
    (x.put name v).overhead = x.overhead := by
  cases name <;> first | rfl | exact absurd rfl h

/-- A setting takes effect on a tree whose booking admits it and whose entries are within a new T (R13, R14). -/
theorem Moves.putSetting {name : SettingName} {v : Nat} (hv : settingInRange (s.tree t).settings name v = true)
    (hb : name = .overhead → s.bookingWith t v + (s.tree t).bookedCall + (s.tree t).bookedDark ≤ roundQuanta)
    (hd : name = .target → ∀ y ∈ s.treeEntries t, y.2.delaysWithin v) :
    Moves R s (s.modTree t fun x => { x with settings := x.settings.put name v }) :=
  .modTree
    { TreeStep.refl t with
      range := fun _ h => by
        obtain ⟨⟨hset, hother⟩, hrest⟩ := (Tree.inRange_iff _).1 h
        exact (Tree.inRange_iff _).2 ⟨⟨Settings.put_inRange hset hv, hother⟩, hrest⟩
      delays := fun y hy h => by
        by_cases hn : name = .target
        · subst hn
          exact hd rfl y hy
        · rwa [Settings.put_target hn]
      booking := fun h => by
        by_cases hn : name = .overhead
        · subst hn
          exact hb rfl
        · rwa [Settings.put_overhead hn] }

theorem Moves.setAtOnce {name : SettingName} {v : Nat} (hv : settingInRange (s.tree t).settings name v = true)
    (hb : name = .overhead → s.bookingWith t v + (s.tree t).bookedCall + (s.tree t).bookedDark ≤ roundQuanta) :
    Moves R s (s.setAtOnce t name v) := by
  unfold State.setAtOnce
  by_cases hn : name = .target
  · subst hn
    refine .then (s' := s.modTreeEntries t fun _ e => e.clampDelay v)
      (.modTreeEntries fun k e _ => (Entry.Rests.clampDelay v e).step k) ?_
    refine .putSetting (s := s.modTreeEntries t _) hv nofun fun _ y hy => ?_
    obtain ⟨k, hm, hk, -⟩ := State.mem_treeEntries.1 hy
    obtain ⟨x, -, hx⟩ := List.mem_map.1 hm
    split at hx
    · obtain ⟨-, he⟩ := Prod.mk.inj hx
      exact he ▸ Entry.clampDelay_delaysWithin v x.2
    · rename_i hne
      rw [hx] at hne
      exact absurd hk hne
  · simp only [if_neg hn]
    exact .putSetting hv hb fun h => absurd h hn

/-! ## Staging a change -/

@[simp] theorem State.bookPlace_port (c : Change) (p : Port) : (s.bookPlace c).port p = s.port p := by
  unfold State.bookPlace; split <;> rfl
@[simp] theorem State.bookPlace_queue (c : Change) : (s.bookPlace c).queue = s.queue := by
  unfold State.bookPlace; split <;> rfl
@[simp] theorem State.bookPlace_round (c : Change) : (s.bookPlace c).round = s.round := by
  unfold State.bookPlace; split <;> rfl
@[simp] theorem State.bookPlace_roster (c : Change) : (s.bookPlace c).roster = s.roster := by
  unfold State.bookPlace; split <;> rfl
@[simp] theorem State.bookPlace_trees (c : Change) : (s.bookPlace c).trees = s.trees := by
  unfold State.bookPlace; split <;> rfl
@[simp] theorem State.bookPlace_mayEnter (c : Change) (p : Port) : (s.bookPlace c).mayEnter p = s.mayEnter p := by
  unfold State.bookPlace; split <;> rfl

theorem State.bookPlace_of_not {c : Change} (h : c.isWithdraw = false) : s.bookPlace c = s := by
  simp [State.bookPlace, h]

/-- A change that has passed its checks enters the queue or is held (R112, R117). -/
theorem Moves.stageChange {c : Change} (hc : Stageable s c) (hb : s.bookingPasses c s.round = true)
    (hp : (s.port p).inProgress = none) (q : Byte) : Moves R s ((s.bookPlace c).stageChange p q c) := by
  unfold State.stageChange
  rw [State.bookPlace_mayEnter]
  split
  · rename_i hm
    rw [State.bookPlace_round]
    exact .then (Move.enter s p c hc hm hb).moves (.reply p q _ _)
  · exact (Move.hold s p q c hc hp).moves

theorem Moves.stageOther {c : Change} (hw : c.isWithdraw = false) (hr : c.inRange = true) (hm : c.mayWait = true)
    (hb : s.bookingPasses c s.round = true) (hp : (s.port p).inProgress = none) (q : Byte) :
    Moves R s (s.stageChange p q c) := by
  have := Moves.stageChange (R := R) ⟨fun _ => hr, hm, fun h => by rw [hw] at h; cases h⟩ hb hp q
  rwa [State.bookPlace_of_not hw] at this

theorem Moves.takeSetTree (hp : (s.port p).inProgress = none) (q : Byte) (n code v : Nat) :
    Moves R s (s.takeSetTree p q n code v) := by
  unfold State.takeSetTree
  split
  · rename_i t name _ _
    split
    · exact .refuse p q _
    · rename_i hv
      split
      · exact .refuse p q _
      · split
        · exact .refuse p q _
        · rename_i hb
          simp only [Bool.not_eq_false] at hv hb
          split
          · refine .then (.setAtOnce hv fun hn => ?_) (.reply p q _ _)
            subst hn
            simpa [State.bookingPasses] using hb
          · rename_i ho
            refine .stageOther rfl ?_ ?_ hb hp q
            · have hreset : settingInRange resetSettings name v = settingInRange (s.tree t).settings name v := by
                cases name <;> first | rfl | exact absurd rfl ho
              simp [Change.inRange, hreset, hv, ho]
            · simp [Change.mayWait, ho]
  · exact .refuse p q _

/-! ## Admission -/

theorem Store.length_write_le {α : Type} (k : Nat) (v : α) (st : Store α) :
    (Store.write k v st).length ≤ st.length + 1 := by
  induction st with
  | nil => simp [Store.write]
  | cons x st ih =>
    unfold Store.write
    split
    · simp
    · split
      · simp
      · simpa using ih

theorem Store.length_write_of_isSome {α : Type} {k : Nat} (v : α) {st : Store α} (hw : Store.Wf st)
    (hr : (Store.read k st).isSome = true) : (Store.write k v st).length = st.length := by
  induction st with
  | nil => cases hr
  | cons x st ih =>
    obtain ⟨hx, hw⟩ := List.pairwise_cons.1 hw
    unfold Store.write
    split
    · rename_i hk
      obtain ⟨v', hv'⟩ := Option.isSome_iff_exists.1 hr
      obtain rfl | hm := List.mem_cons.1 (Store.mem_of_read hv')
      · exact absurd hk (lt_irrefl _)
      · exact absurd (hx _ hm) hk.not_gt
    · split
      · rfl
      · rename_i hne
        rw [Store.read_cons, if_neg hne] at hr
        simpa using ih hw hr

theorem Moves.takeAdmit (q : Byte) (serial : Serial) (n c pk w : Nat) : Moves R s (s.takeAdmit p q serial n c pk w) := by
  unfold State.takeAdmit
  split
  · exact .refuse p q _
  · split
    · exact .refuse p q _
    · rename_i hk
      simp only
      split
      · exact .refuse p q _
      · rename_i hfull
        refine .then (Move.admissions s _ (Store.wf_write _ _ _) (fun h x hx => ?_) fun hw hl => ?_).moves (.reply p q _ _)
        · obtain rfl | hx := Store.mem_write hx
          · simpa [Contract.inRange] using hk
          · exact h x hx
        · cases hr : (Store.read serial.toNat s.admissions).isSome
          · rw [hr] at hfull
            exact (Store.length_write_le _ _ _).trans (Nat.lt_of_not_le fun h => hfull ⟨rfl, h⟩)
          · exact (Store.length_write_of_isSome _ hw hr).trans_le hl

theorem Moves.takeStrike (q : Byte) (serial : Serial) : Moves R s (s.takeStrike p q serial) := by
  unfold State.takeStrike
  split
  · exact .refuse p q _
  · exact .then (Move.admissions s _ (Store.wf_erase _ _) (fun h x hx => h x (List.mem_of_mem_filter hx))
      fun _ hl => (List.length_filter_le _ _).trans hl).moves (.reply p q _ _)

theorem Moves.openMode (b : Bool) : Moves R s { s with openMode := b } :=
  (Move.plain s b s.routes s.band s.tickets s.delivered).moves

theorem Moves.takeSetAdmissionMode (q : Byte) (n : Nat) : Moves R s (s.takeSetAdmissionMode p q n) := by
  unfold State.takeSetAdmissionMode
  split
  · exact .then (.openMode _) (.reply p q _ _)
  · exact .then (.openMode _) (.reply p q _ _)
  · exact .refuse p q _

theorem Moves.takeCalls (q : Byte) (n : Nat) (on : Bool) : Moves R s (s.takeCalls p q n on) := by
  unfold State.takeCalls
  split
  · exact .refuse p q _
  · exact .then (.modEngine Tree.engine_inRange (.refl _) (fun h => h.2.2.2.1) fun h => h.2.2.2.2) (.reply p q _ _)

theorem Moves.takeReadRoster (q : Byte) (n first count : Nat) : Moves R s (s.takeReadRoster p q n first count) := by
  unfold State.takeReadRoster
  split
  · exact .refuse p q _
  · split
    · exact .refuse p q _
    · exact .reply p q _ _

theorem Moves.takeReadTree (q : Byte) (n : Nat) : Moves R s (s.takeReadTree p q n) := by
  unfold State.takeReadTree
  split
  · exact .refuse p q _
  · exact .reply p q _ _

/-! ## Changes to one home -/

/-- A change to one home: refused, or what is left of its rule for a tag in range and the entry of its slot. -/
theorem Moves.withHome (q : Byte) (n tag : Nat) (ok : Bool) (wrong : Entry → Bool) (go : TreeId → Entry → State)
    (h : ∀ t e, tagOk tag = true → ok = true → s.entry t tag = some e → Moves R s (go t e)) :
    Moves R s (s.withHome p q n tag ok wrong go) := by
  unfold State.withHome
  split
  · exact .refuse p q _
  · split
    · exact .refuse p q _
    · rename_i hargs
      split
      · exact .refuse p q _
      · rename_i e he
        split
        · exact .refuse p q _
        · exact h _ e (by simp_all) (by simp_all) he

theorem Moves.takeWithdraw (hp : (s.port p).inProgress = none) (q : Byte) (n tag : Nat) :
    Moves R s (s.takeWithdraw p q n tag) :=
  .withHome q n tag _ _ _ fun t _ ht _ _ => by
    split
    · exact .refuse p q _
    · rename_i hroom
      exact .stageChange (c := .withdraw t tag) ⟨fun _ => ht, rfl, fun _ => Nat.lt_of_not_le hroom⟩ rfl hp q

theorem Moves.takeSetContract (hp : (s.port p).inProgress = none) (q : Byte) (n tag c pk w : Nat) :
    Moves R s (s.takeSetContract p q n tag c pk w) :=
  .withHome q n tag _ _ _ fun t e ht hk he => by
    split
    · rename_i hb
      refine .stageOther rfl ?_ rfl ?_ hp q
      · simp [Change.inRange, ht, Contract.inRange, hk]
      · simp [State.bookingPasses, he, hb]
    · exact .refuse p q _

theorem Moves.takeUncap (hp : (s.port p).inProgress = none) (q : Byte) (n tag : Nat) : Moves R s (s.takeUncap p q n tag) :=
  .withHome q n tag _ _ _ fun t _ ht _ _ => .stageOther (c := .uncap t tag) rfl ht rfl rfl hp q

theorem Moves.takeFence (hp : (s.port p).inProgress = none) (q : Byte) (n tag : Nat) : Moves R s (s.takeFence p q n tag) :=
  .withHome q n tag _ _ _ fun t _ ht _ _ => .stageOther (c := .fence t tag) rfl ht rfl rfl hp q

theorem Moves.takeRelease (hp : (s.port p).inProgress = none) (q : Byte) (n tag : Nat) :
    Moves R s (s.takeRelease p q n tag) :=
  .withHome q n tag _ _ _ fun t _ ht _ _ => .stageOther (c := .release t tag) rfl ht rfl rfl hp q

theorem Moves.takeSwitchBand (hp : (s.port p).inProgress = none) (q : Byte) (n : Nat) : Moves R s (s.takeSwitchBand p q n) := by
  unfold State.takeSwitchBand
  split
  · exact .refuse p q _
  · exact .stageOther rfl rfl rfl rfl hp q

theorem Moves.takeClose (hp : (s.port p).inProgress = none) (q : Byte) (n : Nat) : Moves R s (s.takeClose p q n) := by
  unfold State.takeClose
  split
  · exact .stageOther rfl rfl rfl rfl hp q
  · split
    · exact .refuse p q _
    · exact .stageOther rfl rfl rfl rfl hp q

/-! ## The journal and the watches -/

theorem Moves.takeTakeRecords (q : Byte) (n : Nat) : Moves R s (s.takeTakeRecords p q n) := by
  unfold State.takeTakeRecords
  split
  · exact .refuse p q _
  · refine .then (Move.journal s { s.journal with records := s.journal.records.drop n } rfl (fun h => ?_)
      fun h r hr => h.2 r (List.mem_of_mem_drop hr)).moves (.reply p q _ _)
    simp only [List.length_drop]
    omega

theorem Moves.takeSetJournalMark (q : Byte) (n : Nat) : Moves R s (s.takeSetJournalMark p q n) := by
  unfold State.takeSetJournalMark
  split
  · exact .refuse p q _
  · exact .then (Move.journal s { s.journal with mark := n } rfl id fun h => h.2).moves (.reply p q _ _)

theorem watchOf_lt {n tree tag a b th c : Nat} {w : Watch} (h : watchOf n tree tag a b th c = some w) : n < 8 := by
  unfold watchOf at h
  split at h
  · split at h
    · rename_i hok
      exact hok.1
    · cases h
  · cases h

theorem Moves.takeSetWatch (q : Byte) (n tree tag a b th c : Nat) : Moves R s (s.takeSetWatch p q n tree tag a b th c) := by
  unfold State.takeSetWatch
  split
  · exact .refuse p q _
  · rename_i w hw
    split
    · exact .refuse p q _
    · exact .then (.then (.writeWatch w fun _ => watchOf_lt hw) (.testWatch n)) (.reply p q _ _)

theorem Moves.takeClearWatch (q : Byte) (n : Nat) : Moves R s (s.takeClearWatch p q n) := by
  unfold State.takeClearWatch
  split
  · exact .then (.filterWatches _) (.reply p q _ _)
  · exact .refuse p q _

theorem Moves.takeReadMeters (q : Byte) (n tag : Nat) : Moves R s (s.takeReadMeters p q n tag) := by
  unfold State.takeReadMeters
  split
  · exact .refuse p q _
  · split
    · exact .refuse p q _
    · exact .reply p q _ _

/-! ## Light supervision -/

theorem Moves.takeSetLightLimit (q : Byte) (n value scale : Nat) : Moves R s (s.takeSetLightLimit p q n value scale) := by
  unfold State.takeSetLightLimit
  split
  · exact .refuse p q _
  · split
    · exact .refuse p q _
    · rename_i t _ hargs
      refine .then (.modLight_rest (fun _ h => ?_) rfl) (.reply p q _ _)
      obtain ⟨⟨hbase, -⟩, hrest⟩ := (Light.inRange_iff _).1 (Tree.light_inRange h)
      rw [not_or, not_lt, not_not] at hargs
      exact (Light.inRange_iff _).2 ⟨⟨hbase, hargs⟩, hrest⟩

theorem Moves.takeSetConfirm (q : Byte) (n m v mOver : Nat) : Moves R s (s.takeSetConfirm p q n m v mOver) := by
  unfold State.takeSetConfirm
  split
  · exact .refuse p q _
  · split
    · exact .refuse p q _
    · rename_i t _ hargs
      refine .then (.modLight_rest (fun _ h => ?_) rfl) (.reply p q _ _)
      obtain ⟨hbase, -, hrest⟩ := (Light.inRange_iff _).1 (Tree.light_inRange h)
      exact (Light.inRange_iff _).2 ⟨hbase, by simp only; omega, hrest⟩

theorem Moves.takeHunt (q : Byte) (n : Nat) : Moves R s (s.takeHunt p q n) := by
  unfold State.takeHunt
  split
  · exact .refuse p q _
  · split
    · exact .refuse p q _
    · rename_i h
      rw [not_or, not_not] at h
      exact .then (.beginHunt fun _ => h.1) (.reply p q _ _)

theorem Moves.takeAbandon (q : Byte) (n : Nat) : Moves R s (s.takeAbandon p q n) := by
  unfold State.takeAbandon
  split
  · exact .refuse p q _
  · exact .then .abandonHunt (.reply p q _ _)

theorem Moves.takeReadLight (q : Byte) (n : Nat) : Moves R s (s.takeReadLight p q n) := by
  unfold State.takeReadLight
  split
  · exact .refuse p q _
  · exact .reply p q _ _

/-! ## Ports, allocations and notices -/

theorem State.mayAllocate_iff (n : Nat) (h : s.mayAllocate p n = true) : s.queuedOf p ≤ n ∨ (s.port p).allocation ≤ n := by
  simp only [State.mayAllocate, Bool.or_eq_true, Bool.not_eq_true', decide_eq_false_iff_not, Bool.and_eq_true,
    decide_eq_true_eq] at h
  omega

theorem Moves.takeSetAllocations (q : Byte) (l a v : Nat) : Moves R s (s.takeSetAllocations p q l a v) := by
  unfold State.takeSetAllocations
  split
  · exact .refuse p q _
  · split
    · rename_i hsum h
      exact .then (Move.allocate s l a v (by omega) (s.mayAllocate_iff _ h.1) (s.mayAllocate_iff _ h.2.1)
        (s.mayAllocate_iff _ h.2.2)).moves (.reply p q _ _)
    · exact .refuse p q _

theorem Moves.takeStall (q : Byte) (n : Nat) (b : Bool) : Moves R s (s.takeStall p q n b) := by
  unfold State.takeStall
  split
  · exact .refuse p q _
  · exact .then (.modPort_rest rfl rfl rfl rfl rfl rfl) (.reply p q _ _)

theorem Moves.takeSetRoute (q : Byte) (k n : Nat) : Moves R s (s.takeSetRoute p q k n) := by
  unfold State.takeSetRoute
  split
  · exact .then (Move.plain s s.openMode _ s.band s.tickets s.delivered).moves (.reply p q _ _)
  · exact .refuse p q _

theorem Moves.takeFetchNotices (q : Byte) (n : Nat) : Moves R s (s.takeFetchNotices p q n) := by
  unfold State.takeFetchNotices
  split
  · exact .refuse p q _
  · refine .then (.modPort ⟨rfl, rfl, id, fun _ => rfl, fun h => ?_⟩) (.reply p q _ _)
    simp only [PortState.judgeLine, List.map_drop]
    exact h.sublist (List.drop_sublist _ _)

theorem Moves.takeSetThreshold (q : Byte) (n : Nat) : Moves R s (s.takeSetThreshold p q n) := by
  unfold State.takeSetThreshold
  split
  · exact .refuse p q _
  · exact .then (.modPort ⟨rfl, rfl, id, fun _ => rfl, id⟩) (.reply p q _ _)

theorem Moves.takeSetHoldLimit (q : Byte) (n : Nat) : Moves R s (s.takeSetHoldLimit p q n) := by
  unfold State.takeSetHoldLimit
  split
  · exact .refuse p q _
  · exact .then (.modPort_rest rfl rfl rfl rfl rfl rfl) (.reply p q _ _)

/-! ## Taking a request, and the slots -/

/-- A request that a port with an empty in-progress slot carries out. -/
theorem Moves.carryOut (hp : (s.port p).inProgress = none) (q : Byte) (r : Request) : Moves R s (s.carryOut p q r) := by
  cases r with
  | startTree tree => exact .takeStartTree q tree
  | stopTree tree => exact .takeStopTree q tree
  | setTree tree setting value => exact .takeSetTree hp q tree setting value
  | admitHome serial tree c pk w => exact .takeAdmit q serial tree c pk w
  | strike serial => exact .takeStrike q serial
  | setAdmissionMode mode => exact .takeSetAdmissionMode q mode
  | callsOn tree => exact .takeCalls q tree true
  | callsOff tree => exact .takeCalls q tree false
  | withdraw tree tag => exact .takeWithdraw hp q tree tag
  | setAllocations l a v => exact .takeSetAllocations q l a v
  | stall named => exact .takeStall q named true
  | unstall named => exact .takeStall q named false
  | setRoute kind named => exact .takeSetRoute q kind named
  | readTree tree => exact .takeReadTree q tree
  | setContract tree tag c pk w => exact .takeSetContract hp q tree tag c pk w
  | switchBand band => exact .takeSwitchBand hp q band
  | closeInterval tree => exact .takeClose hp q tree
  | takeRecords count => exact .takeTakeRecords q count
  | setWatch watch tree tag direction band threshold action => exact .takeSetWatch q watch tree tag direction band threshold action
  | clearWatch watch => exact .takeClearWatch q watch
  | uncap tree tag => exact .takeUncap hp q tree tag
  | readMeters tree tag => exact .takeReadMeters q tree tag
  | setJournalMark mark => exact .takeSetJournalMark q mark
  | setLightLimit tree value scale => exact .takeSetLightLimit q tree value scale
  | setConfirm tree m v mOver => exact .takeSetConfirm q tree m v mOver
  | hunt tree => exact .takeHunt q tree
  | abandon tree => exact .takeAbandon q tree
  | fence tree tag => exact .takeFence hp q tree tag
  | release tree tag => exact .takeRelease hp q tree tag
  | readLight tree => exact .takeReadLight q tree
  | readRoster tree firstTag count => exact .takeReadRoster q tree firstTag count
  | fetchNotices count => exact .takeFetchNotices q count
  | setThreshold level => exact .takeSetThreshold q level
  | setHoldLimit limit => exact .takeSetHoldLimit q limit

/-- PORT RESET on the port alone: its slots are empty by now (R176). -/
def State.resetPort (s : State) (p : Port) : State :=
  s.modPort p fun x => { x with inProgress := none, waiting := none, notices := [], threshold := .info, line := false,
                                holdLimit := some 500 }

theorem Moves.resetPort (hp : (s.port p).inProgress = none) : Moves R s (s.resetPort p) :=
  .modPort ⟨hp.symm, rfl, fun _ _ => rfl, fun _ => rfl, fun _ => List.nodup_nil⟩

@[simp] theorem State.dropHeld_ports (h : Held) : (s.dropHeld h).ports = s.ports := by
  unfold State.dropHeld; split <;> rfl

/-- Emptying the slots of a port before its reset leaves nothing to see. -/
theorem State.resetPort_of_held (h : Held) :
    (s.dropHeld h).resetPort p = (((s.freeSlot p).dropHeld h).clearWaiting p).resetPort p := by
  cases p <;> cases hw : h.change.isWithdraw <;> simp [State.dropHeld, hw] <;> rfl

theorem Moves.takePortReset (q : Byte) : Moves R s (s.takePortReset p q) := by
  unfold State.takePortReset
  refine .then ?_ (.reply p q _ _)
  split
  · rename_i h hp
    show Moves R s ((s.dropHeld h).resetPort p)
    rw [State.resetPort_of_held]
    refine (Move.dropHeld s p h hp).moves.then (.resetPort ?_)
    simp [State.clearWaiting, State.port_of_ports (State.dropHeld_ports _), State.freeSlot]
  · rename_i hp
    exact .resetPort hp

theorem Moves.take (hp : (s.port p).inProgress = none) (a : Arrived) : Moves R s (s.take p a) := by
  unfold State.take
  split
  · exact .takePortReset a.seq
  · exact .refuse p _ _
  · split
    · exact .carryOut hp a.seq _
    · exact .refuse p _ _

theorem Moves.takeWaiting (p : Port) : Moves R s (s.takeWaiting p) := by
  unfold State.takeWaiting
  split
  · rename_i hp _
    refine .then (.modPort ⟨rfl, rfl, fun _ _ => rfl, id, id⟩) (.take ?_ _)
    simpa using hp
  · exact .refl s

theorem Moves.intoSlots (a : Arrived) : Moves R s (s.intoSlots p a) := by
  unfold State.intoSlots
  split
  · rename_i hp
    exact .take hp a
  · rename_i h hp _
    refine .modPort ⟨rfl, rfl, fun _ hn => ?_, id, id⟩
    simp only [hp] at hn
    cases hn
  · exact .refuse p _ _

theorem Moves.arrive (a : Arrived) : Moves R s (s.arrive p a) := by
  unfold State.arrive
  split
  · exact .takePortReset a.seq
  · exact .then (.takeWaiting p) (.intoSlots a)

end Sys2Proof.Machine
end

section
/-! PROOFS. What moves and acts keep of the stores and of the ranges of the registers. -/

namespace Sys2Proof.Machine

variable {R N : Prop} {s s' : State}

/-! ## What the operations of the change queue leave -/

theorem State.bookPlace_eq (c : Change) : s.bookPlace c = { s with journal := (s.bookPlace c).journal } := by
  unfold State.bookPlace; split <;> rfl

theorem State.dropHeld_eq (h : Held) : s.dropHeld h = { s with journal := (s.dropHeld h).journal } := by
  unfold State.dropHeld; split <;> rfl

theorem State.enterQueue_eq (p : Port) (c : Change) (r : Round) :
    s.enterQueue p c r =
      { s with
        queue := s.queue ++ [{ origin := p, change := c, roundTaken := r, voided := false }]
        roster := (s.enterQueue p c r).roster
        trees := (s.enterQueue p c r).trees } := by
  unfold State.enterQueue
  cases c with
  | treeSetting t name v => cases name <;> rfl
  | _ => rfl

@[simp] theorem State.enterQueue_queue (p : Port) (c : Change) (r : Round) :
    (s.enterQueue p c r).queue = s.queue ++ [{ origin := p, change := c, roundTaken := r, voided := false }] := by
  rw [enterQueue_eq]

/-- The trees after a change has entered: a W_call or W_dark is booked. -/
theorem State.enterQueue_tree_cases (p : Port) (c : Change) (r : Round) (t : TreeId) :
    (s.enterQueue p c r).tree t = s.tree t ∨
      ∃ v, (c = .treeSetting t .wCall v ∧ (s.enterQueue p c r).tree t = { s.tree t with bookedCall := v }) ∨
        (c = .treeSetting t .wDark v ∧ (s.enterQueue p c r).tree t = { s.tree t with bookedDark := v }) := by
  unfold State.enterQueue
  cases c with
  | treeSetting t' name v =>
    by_cases ht : t' = t
    · subst ht
      cases name with
      | wCall => exact .inr ⟨v, .inl ⟨rfl, State.modTree_tree _ _ _⟩⟩
      | wDark => exact .inr ⟨v, .inr ⟨rfl, State.modTree_tree _ _ _⟩⟩
      | _ => exact .inl rfl
    · left
      cases name <;> first | rfl | exact State.modTree_tree_ne _ _ (Ne.symm ht)
  | _ => exact .inl rfl

/-- The entry of a slot with its booked commitment afresh (R20), and its contract replaced where one is given. -/
def Entry.rebooked (queue : List ChangeEntry) (t : TreeId) (tag : Nat) (k : Option Contract) (e : Entry) : Entry :=
  { e with contract := k.getD e.contract, booked := bookedFor (k.getD e.contract).c (queuedRates queue t tag e.occupied) }

theorem State.rebook_roster_eq (t : TreeId) (tag : Nat) :
    (s.rebook t tag).roster = Store.modify (slotOf t tag) (Entry.rebooked s.queue t tag none) s.roster := rfl

/-- The target of a change is the occupant it was taken for, where no WITHDRAW has voided it (R22, R115). -/
theorem State.targetOf_spec {q : ChangeEntry} {t : TreeId} {tag : Nat} {e : Entry} (h : s.targetOf q t tag = some e) :
    s.entry t tag = some e ∧ q.voided = false ∧ laterThan e.occupied q.roundTaken = false := by
  unfold State.targetOf at h
  split at h
  · cases h
  · rename_i hv
    split at h
    · cases h
    · rename_i e' he
      split at h
      · cases h
      · rename_i hl
        cases h
        exact ⟨he, by simpa using hv, by simpa using hl⟩

theorem State.entry_of_targetOf {q : ChangeEntry} {t : TreeId} {tag : Nat} {e : Entry} (h : s.targetOf q t tag = some e) :
    s.entry t tag = some e := (State.targetOf_spec h).1

theorem State.applyContract_cases (q : ChangeEntry) (t : TreeId) (tag : Nat) (v : Contract) :
    (s.applyContract q t tag v).state = s.rebook t tag ∨
      ∃ e, s.targetOf q t tag = some e ∧ e.state ≠ .leaving ∧
        (s.applyContract q t tag v).state = (s.setEntry t tag { e with contract := v }).rebook t tag := by
  unfold State.applyContract
  split
  · exact .inl rfl
  · rename_i e he
    split
    · exact .inl rfl
    · exact .inr ⟨e, he, ‹_›, rfl⟩

theorem State.applyContract_eq (q : ChangeEntry) (t : TreeId) (tag : Nat) (v : Contract) :
    (s.applyContract q t tag v).state = { s with roster := (s.applyContract q t tag v).state.roster } := by
  obtain h | ⟨e, -, -, h⟩ := State.applyContract_cases (s := s) q t tag v <;> rw [h] <;> rfl

theorem Store.modify_modify {α : Type} (k : Nat) (f g : α → α) (st : Store α) :
    Store.modify k f (Store.modify k g st) = Store.modify k (fun v => f (g v)) st := by
  unfold Store.modify
  rw [List.map_map]
  refine List.map_congr_left fun x _ => ?_
  by_cases h : x.1 = k <;> simp [h]

theorem Store.modify_congr {α : Type} {k : Nat} {f g : α → α} {st : Store α} (h : ∀ x ∈ st, x.1 = k → f x.2 = g x.2) :
    Store.modify k f st = Store.modify k g st := by
  refine List.map_congr_left fun x hx => ?_
  by_cases hk : x.1 = k
  · simp only [if_pos hk, h x hx hk]
  · simp only [if_neg hk]

theorem State.applyContract_roster (hw : Store.Wf s.roster) (q : ChangeEntry) (t : TreeId) (tag : Nat) (v : Contract) :
    ∃ k, (∀ w ∈ k, w = v ∧ ∃ e, s.targetOf q t tag = some e) ∧
      (s.applyContract q t tag v).state.roster = Store.modify (slotOf t tag) (Entry.rebooked s.queue t tag k) s.roster := by
  obtain h | ⟨e, he, -, h⟩ := State.applyContract_cases (s := s) q t tag v
  · exact ⟨none, nofun, by rw [h]; rfl⟩
  · refine ⟨some v, fun w hw => ⟨(Option.some.inj hw).symm, e, he⟩, ?_⟩
    have hr := State.entry_of_targetOf he
    rw [h, State.rebook_roster_eq]
    show Store.modify _ _ (Store.write _ _ _) = _
    rw [Store.write_eq_modify hw hr, Store.modify_modify]
    refine Store.modify_congr fun x hx hk => ?_
    have := Store.read_of_mem hw hx
    rw [hk, show Store.read (slotOf t tag) s.roster = some e from hr] at this
    cases this
    rfl

/-! ## The roster -/

/-- What a move makes of the roster: every entry is kept but for what a rule gives it, or one entry is booked afresh. -/
theorem Move.roster_cases (h : Move R s s') (hw : Store.Wf s.roster) :
    RosterStep s s.roster s'.roster ∨
      ∃ t tag k, (RegistersInRange s → ∀ v ∈ k, v.inRange = true) ∧
        s'.roster = Store.modify (slotOf t tag) (Entry.rebooked s'.queue t tag k) s.roster := by
  have hrefl : RosterStep s s.roster s.roster := by
    simpa using RosterStep.map (s := s) s.roster id fun x _ => ⟨rfl, .refl _ _⟩
  cases h with
  | roster _ h => exact .inl (h hw)
  | hold p q c _ _ =>
    rw [State.bookPlace_eq]
    exact .inl hrefl
  | enter p c hc =>
    rw [State.bookPlace_eq]
    cases c with
    | contract t tag v => exact .inr ⟨t, tag, none, nofun, rfl⟩
    | treeSetting t name v => cases name <;> exact .inl hrefl
    | _ => exact .inl hrefl
  | dropHeld p h =>
    rw [State.dropHeld_eq]
    exact .inl hrefl
  | enterHeld p h =>
    obtain ⟨seq, c, r, ticket⟩ := h
    cases c with
    | contract t tag v => exact .inr ⟨t, tag, none, nofun, rfl⟩
    | treeSetting t name v => cases name <;> exact .inl hrefl
    | _ => exact .inl hrefl
  | popContract q rest t tag v hq hc =>
    obtain ⟨k, hk, hr⟩ := State.applyContract_roster (s := { s with queue := rest }) hw q t tag v
    refine .inr ⟨t, tag, k, fun hs w hw => ?_, by rw [hr, State.applyContract_eq]⟩
    have := hs.2.2.2.2.1 q (by simp [hq])
    rw [hc] at this
    simp only [Change.inRange, Bool.and_eq_true] at this
    exact (hk w hw).1 ▸ this.2
  | voidSlot t tag => exact .inr ⟨t, tag, none, nofun, rfl⟩
  | _ => exact .inl hrefl

/-- The slots and serials of a roster that are left: entries may go, none comes. -/
def RosterKept (ros ros' : Store Entry) : Prop :=
  ∃ l, l.Sublist ros ∧ List.Forall₂ (fun x y => y.1 = x.1 ∧ y.2.serial = x.2.serial) l ros'

theorem RosterStep.kept {ros ros' : Store Entry} (h : RosterStep s ros ros') : RosterKept ros ros' :=
  let ⟨l, hl, hf⟩ := h
  ⟨l, hl, hf.imp fun _ _ h => ⟨h.1, h.2.serial⟩⟩

theorem RosterKept.modify (k : Nat) (f : Entry → Entry) (ros : Store Entry) (h : ∀ e, (f e).serial = e.serial) :
    RosterKept ros (Store.modify k f ros) := by
  refine ⟨ros, .refl _, ?_⟩
  unfold Store.modify
  rw [List.forall₂_map_right_iff, List.forall₂_same]
  intro x _
  split
  · exact ⟨rfl, h _⟩
  · exact ⟨rfl, rfl⟩

/-- A property of the slots and serials of every two entries, in their order, holds on of what is left of them. -/
theorem RosterKept.pairwise {ros ros' : Store Entry} (h : RosterKept ros ros') {P : Nat × Serial → Nat × Serial → Prop}
    (hp : ros.Pairwise fun a b => P (a.1, a.2.serial) (b.1, b.2.serial)) :
    ros'.Pairwise fun a b => P (a.1, a.2.serial) (b.1, b.2.serial) := by
  obtain ⟨l, hl, hf⟩ := h
  have heq : ros'.map (fun x => (x.1, x.2.serial)) = l.map fun x => (x.1, x.2.serial) := by
    clear hl
    induction hf with
    | nil => rfl
    | cons h _ ih => simp [h, ih]
  have := List.pairwise_map (R := P).2 (hp.sublist hl)
  rw [← heq] at this
  exact List.pairwise_map.1 this

theorem RosterKept.of_mem {ros ros' : Store Entry} (h : RosterKept ros ros') {y : Nat × Entry} (hy : y ∈ ros') :
    ∃ x ∈ ros, y.1 = x.1 := by
  obtain ⟨l, hl, hf⟩ := h
  obtain ⟨x, hx, h⟩ := (List.forall₂_iff_get.1 hf |> fun ⟨hlen, hget⟩ => by
    obtain ⟨i, hi, rfl⟩ := List.mem_iff_getElem.1 hy
    exact ⟨l[i]'(hlen ▸ hi), List.getElem_mem _, (hget i (hlen ▸ hi) hi).1⟩ : ∃ x ∈ l, y.1 = x.1)
  exact ⟨x, hl.subset hx, h⟩

theorem Move.rosterKept (h : Move R s s') (hw : Store.Wf s.roster) : RosterKept s.roster s'.roster := by
  obtain h | ⟨t, tag, k, -, h⟩ := h.roster_cases hw
  · exact h.kept
  · exact h ▸ .modify _ _ _ fun _ => rfl

theorem Move.wf_roster (h : Move R s s') (hw : Store.Wf s.roster) : Store.Wf s'.roster :=
  (h.rosterKept hw).pairwise (P := fun a b => a.1 < b.1) hw

theorem Move.rosterSound (h : Move R s s') (hs : RosterSound s) : RosterSound s' := by
  obtain ⟨⟨hw, hm, hwa, ha, hk, hwk⟩, hser⟩ := hs
  have hkept := h.rosterKept hw
  have hk' : ∀ x ∈ s'.roster, x.1 < 512 := fun y hy => by
    obtain ⟨x, hx, he⟩ := hkept.of_mem hy
    exact he ▸ hk x hx
  have hser' : SerialsUnique s' := hkept.pairwise (P := fun a b => a.2 ≠ b.2) hser
  refine ⟨⟨h.wf_roster hw, ?_⟩, hser'⟩
  clear hkept hser hser'
  cases h with
  | meters m h _ => exact ⟨h hm, hwa, ha, hk', hwk⟩
  | watches w h hk'' => exact ⟨hm, h hwa, ha, hk', hk'' hwk⟩
  | admissions a h _ _ => exact ⟨hm, hwa, h ha, hk', hwk⟩
  | hold p q c _ _ =>
    rw [State.bookPlace_eq] at hk' ⊢
    exact ⟨hm, hwa, ha, hk', hwk⟩
  | enter p c hc =>
    rw [State.enterQueue_eq, State.bookPlace_eq] at hk' ⊢
    exact ⟨hm, hwa, ha, hk', hwk⟩
  | dropHeld p h =>
    rw [State.dropHeld_eq] at hk' ⊢
    exact ⟨hm, hwa, ha, hk', hwk⟩
  | enterHeld p h =>
    rw [State.enterQueue_eq] at hk' ⊢
    exact ⟨hm, hwa, ha, hk', hwk⟩
  | popContract q rest t tag v hq hc =>
    rw [State.applyContract_eq] at hk' ⊢
    exact ⟨hm, hwa, ha, hk', hwk⟩
  | _ => exact ⟨hm, hwa, ha, hk', hwk⟩

/-! ## A new home -/

theorem State.lowestVacant_spec {t : TreeId} {tag : Nat} (h : s.lowestVacant t = some tag) :
    tagOk tag = true ∧ s.entry t tag = none := by
  have hm := List.mem_of_find?_eq_some h
  have hn := List.find?_some h
  simp only [allTags, List.mem_range'_1] at hm
  exact ⟨tagOk_eq_true_iff.2 (by omega), by simpa using hn⟩

theorem State.serial_ne_of_holderOf {serial : Serial} (hk : ∀ x ∈ s.roster, x.1 < 512) (h : s.holderOf serial = none) :
    ∀ x ∈ s.roster, x.2.serial ≠ serial := by
  unfold State.holderOf at h
  split at h
  · rename_i hf
    simpa using List.find?_eq_none.1 hf
  · rename_i k e hf
    have := hk _ (List.mem_of_find?_eq_some hf)
    rw [treeOf, dif_pos (by simp only [slotTree] at this ⊢; omega)] at h
    cases h

/-- A symmetric relation between the entries of a store that a written one stands in to each. -/
theorem Store.pairwise_write {α : Type} {P : Nat × α → Nat × α → Prop} (hsymm : ∀ x y, P x y → P y x) {st : Store α} {k : Nat}
    {v : α} (hp : st.Pairwise P) (h : ∀ x ∈ st, P (k, v) x) : (Store.write k v st).Pairwise P := by
  induction st with
  | nil => exact List.pairwise_singleton _ _
  | cons x st ih =>
    obtain ⟨hx, hp⟩ := List.pairwise_cons.1 hp
    unfold Store.write
    split
    · exact List.pairwise_cons.2 ⟨h, List.pairwise_cons.2 ⟨hx, hp⟩⟩
    · split
      · exact List.pairwise_cons.2 ⟨fun y hy => h y (List.mem_cons_of_mem _ hy), hp⟩
      · refine List.pairwise_cons.2 ⟨fun y hy => ?_, ih hp fun y hy => h y (List.mem_cons_of_mem _ hy)⟩
        obtain rfl | hy := Store.mem_write hy
        · exact hsymm _ _ (h x List.mem_cons_self)
        · exact hx y hy

theorem Act.rosterSound (h : Act R N s s') (hs : RosterSound s) : RosterSound s' := by
  cases h with
  | move h => exact h.rosterSound hs
  | newHome t tag serial k _ hv hh =>
    obtain ⟨⟨hw, hm, hwa, ha, hk, hwk⟩, hser⟩ := hs
    refine ⟨⟨Store.wf_write _ _ _ hw, hm, hwa, ha, fun x hx => ?_, hwk⟩, ?_⟩
    · obtain rfl | hx := Store.mem_write hx
      · exact (slot_of_slotOf (State.lowestVacant_spec hv).1).2.2
      · exact hk x hx
    · exact Store.pairwise_write (fun _ _ => Ne.symm) hser fun x hx => (State.serial_ne_of_holderOf hk hh x hx).symm
  | _ => exact hs

/-! ## Ranges -/

theorem bookedFor_le {c n : Nat} {rates : List Nat} (hc : c ≤ n) (h : ∀ x ∈ rates, x ≤ n) : bookedFor c rates ≤ n := by
  unfold bookedFor
  induction rates generalizing c with
  | nil => exact hc
  | cons x rates ih =>
    exact ih (max_le hc (h x List.mem_cons_self)) fun y hy => h y (List.mem_cons_of_mem _ hy)

theorem mem_queuedRates {queue : List ChangeEntry} {t : TreeId} {tag n : Nat} {r : Round} (h : n ∈ queuedRates queue t tag r) :
    ∃ q ∈ queue, ∃ v : Contract, q.change = .contract t tag v ∧ q.voided = false ∧ laterThan r q.roundTaken = false ∧ v.c = n := by
  obtain ⟨q, hq, he⟩ := List.mem_filterMap.1 h
  split at he
  · rename_i t' tag' v hc
    split at he
    · rename_i ha
      obtain ⟨rfl, rfl, hv, hl⟩ := ha
      exact ⟨q, hq, v, hc, hv, hl, Option.some.inj he⟩
    · cases he
  · cases he

theorem Entry.rebooked_inRange {queue : List ChangeEntry} {t : TreeId} {tag : Nat} {k : Option Contract} {e : Entry}
    (he : e.inRange = true) (hk : ∀ v ∈ k, v.inRange = true) (hq : ∀ q ∈ queue, q.change.inRange = true) :
    (e.rebooked queue t tag k).inRange = true := by
  rw [Entry.inRange_eq, Bool.and_eq_true, Bool.and_eq_true] at he ⊢
  obtain ⟨⟨hc, -⟩, hb⟩ := he
  have hc' : (k.getD e.contract).inRange = true := by
    cases k with
    | none => exact hc
    | some v => exact hk v rfl
  refine ⟨⟨hc', decide_eq_true (bookedFor_le ((Contract.inRange_iff _).1 hc').1 fun n hn => ?_)⟩, hb⟩
  obtain ⟨q, hm, v, hv, -, -, rfl⟩ := mem_queuedRates hn
  have := hq q hm
  rw [hv, Change.inRange, Bool.and_eq_true, Contract.inRange_iff] at this
  exact this.2.1

theorem State.setPort_apply (p p' : Port) (x : PortState) : (s.setPort p x).port p' = if p' = p then x else s.port p' :=
  Trio.get_set _ _ _ _

theorem State.modPort_apply (p p' : Port) (f : PortState → PortState) :
    (s.modPort p f).port p' = if p' = p then f (s.port p) else s.port p' := State.setPort_apply _ _ _

/-- A change to a port that leaves its in-progress slot. -/
theorem State.modPort_inProgress (p p' : Port) {f : PortState → PortState} (h : ∀ x, (f x).inProgress = x.inProgress) :
    ((s.modPort p f).port p').inProgress = (s.port p').inProgress := by
  rw [State.modPort_apply]
  split
  · rename_i hp
    rw [hp, h]
  · rfl

/-- A freed in-progress slot, with the waiting slot emptied or not. -/
theorem State.freed_inProgress (p p' : Port) :
    ((s.freeSlot p).clearWaiting p |>.port p').inProgress = if p' = p then none else (s.port p').inProgress := by
  rw [State.clearWaiting, State.modPort_inProgress, State.freeSlot, State.modPort_apply]
  · split <;> rfl
  · exact fun _ => rfl

/-- A change that waits, in the queue or held. -/
def State.waits (s : State) (c : Change) : Prop :=
  (∃ q ∈ s.queue, q.change = c) ∨ ∃ p, ∃ h ∈ (s.port p).inProgress, h.change = c

/-- The requests that ports hold after a move are those held before and one that may be staged. -/
theorem Move.held_cases (h : Move R s s') {p : Port} {x : Held} (hx : (s'.port p).inProgress = some x) :
    (s.port p).inProgress = some x ∨ Stageable s x.change := by
  cases h with
  | port p' y h =>
    rw [State.setPort_apply] at hx
    split at hx
    · rename_i hp
      exact .inl (hp ▸ h.inProgress ▸ hx)
    · exact .inl hx
  | hold p' q c hc _ =>
    rw [State.bookPlace_eq, heldWith, State.setPort_apply] at hx
    split at hx
    · cases hx
      exact .inr hc
    · exact .inl hx
  | enter p' c _ _ _ =>
    rw [State.enterQueue_eq, State.bookPlace_eq] at hx
    exact .inl hx
  | dropHeld p' h _ =>
    rw [State.dropHeld_eq] at hx
    have := (State.freed_inProgress (s := s) p' p).symm.trans hx
    split at this
    · cases this
    · exact .inl this
  | enterHeld p' h _ _ _ =>
    rw [State.enterQueue_eq] at hx
    have := (State.freed_inProgress (s := s) p' p).symm.trans hx
    split at this
    · cases this
    · exact .inl this
  | allocate l a v _ _ _ _ =>
    rw [State.modPort_inProgress, State.modPort_inProgress, State.modPort_inProgress] at hx
    · exact .inl hx
    all_goals exact fun _ => rfl
  | popContract q rest t tag v _ _ =>
    rw [State.applyContract_eq] at hx
    exact .inl hx
  | _ => exact .inl hx

/-- The changes in the queue after a move waited before it, or one enters that may be staged. -/
theorem Move.queue_cases (h : Move R s s') {q : ChangeEntry} (hq : q ∈ s'.queue) : s.waits q.change ∨ Stageable s q.change := by
  have hold : q ∈ s.queue → s.waits q.change ∨ Stageable s q.change := fun h => .inl (.inl ⟨q, h, rfl⟩)
  cases h with
  | hold p c r _ _ =>
    rw [State.bookPlace_eq] at hq
    exact hold hq
  | enter p c hc _ _ =>
    rw [State.enterQueue_queue, State.bookPlace_queue] at hq
    obtain hq | hq := List.mem_append.1 hq
    · exact hold hq
    · cases List.mem_singleton.1 hq
      exact .inr hc
  | dropHeld p h _ =>
    rw [State.dropHeld_eq] at hq
    exact hold hq
  | enterHeld p h hp _ _ =>
    rw [State.clearWaiting, State.modPort_queue, State.enterQueue_queue] at hq
    obtain hq | hq := List.mem_append.1 hq
    · exact hold hq
    · cases List.mem_singleton.1 hq
      exact .inl (.inr ⟨p, h, hp, rfl⟩)
  | reorder =>
    obtain hq | hq := List.mem_append.1 hq
    · exact hold (List.mem_of_mem_filter hq)
    · exact hold (List.mem_of_mem_filter hq)
  | pop q' rest h _ _ => exact hold (h ▸ List.mem_cons_of_mem _ hq)
  | popSetting q' rest t name v h _ => exact hold (h ▸ List.mem_cons_of_mem _ hq)
  | popContract q' rest t tag v h _ =>
    rw [State.applyContract_eq] at hq
    exact hold (h ▸ List.mem_cons_of_mem _ hq)
  | popWithdraw q' rest h _ => exact hold (h ▸ List.mem_cons_of_mem _ hq)
  | popFinal q' rest r h _ _ => exact hold (h ▸ List.mem_cons_of_mem _ hq)
  | voidSlot t tag _ =>
    obtain ⟨q', hq', rfl⟩ := List.mem_map.1 hq
    refine .inl (.inl ⟨q', hq', ?_⟩)
    split <;> rfl
  | _ => exact hold hq

theorem Move.waits_cases (h : Move R s s') {c : Change} (hc : s'.waits c) : s.waits c ∨ Stageable s c := by
  obtain ⟨q, hq, rfl⟩ | ⟨p, x, hx, rfl⟩ := hc
  · exact h.queue_cases hq
  · exact (h.held_cases hx).imp_left fun hx => .inr ⟨p, x, hx, rfl⟩

/-- A setting that may wait, in range at reset, is in range whatever the others are (section 1.5). -/
theorem settingInRange_of_waits {x : Settings} {name : SettingName} {v : Nat} (hn : name.atOnce = false) :
    settingInRange x name v = settingInRange resetSettings name v := by
  cases name <;> first | rfl | cases hn

/-- The registers of a tree after a move. -/
theorem Move.tree_inRange (h : Move R s s') (hw : Store.Wf s.roster) (hs : RegistersInRange s) (t : TreeId) :
    (s'.tree t).inRange = true := by
  have hset {c : Change} {r : Round} {p : Port} {u : State} (hc : c.inRange = true) (hu : (u.tree t).inRange = true) :
      ((u.enterQueue p c r).tree t).inRange = true := by
    obtain h | ⟨v, ⟨hv, h⟩ | ⟨hv, h⟩⟩ := State.enterQueue_tree_cases (s := u) p c r t
    · rwa [h]
    all_goals
      subst hv
      rw [h]
      simp only [Change.inRange, settingInRange, Bool.and_eq_true, decide_eq_true_eq] at hc
      obtain ⟨⟨hs, hcount, hlead, hbooked⟩, hrest⟩ := (Tree.inRange_iff _).1 hu
      exact (Tree.inRange_iff _).2 ⟨⟨hs, hcount, hlead, by simp only; omega⟩, hrest⟩
  cases h with
  | tree t' x h =>
    by_cases ht : t = t'
    · subst ht
      rw [State.setTree_tree]
      exact h.range hw (hs.1 t)
    · rw [State.setTree_tree_ne _ _ ht]
      exact hs.1 t
  | hold p q c _ _ =>
    rw [State.bookPlace_eq]
    exact hs.1 t
  | enter p c hc _ _ =>
    refine hset (hc.range hs) ?_
    rw [State.bookPlace_eq]
    exact hs.1 t
  | dropHeld p h _ =>
    rw [State.dropHeld_eq]
    exact hs.1 t
  | enterHeld p h hp _ _ => exact hset (hs.2.2.2.2.2 p h hp) (hs.1 t)
  | popSetting q rest t' name v hq hc =>
    by_cases ht : t = t'
    · subst ht
      rw [State.modTree_tree]
      have := hs.2.2.2.2.1 q (by simp [hq])
      simp only [hc, Change.inRange, Bool.and_eq_true, Bool.not_eq_true'] at this
      obtain ⟨⟨hset, hrest⟩, hrest'⟩ := (Tree.inRange_iff _).1 (hs.1 t)
      refine (Tree.inRange_iff _).2 ⟨⟨Settings.put_inRange hset ?_, hrest⟩, hrest'⟩
      rw [settingInRange_of_waits this.1, this.2]
    · rw [State.modTree_tree_ne _ _ ht]
      exact hs.1 t
  | popContract q rest t' tag v _ _ =>
    rw [State.applyContract_eq]
    exact hs.1 t
  | _ => exact hs.1 t

theorem registersInRange_iff : RegistersInRange s ↔ (∀ t : TreeId, (s.tree t).inRange = true) ∧
    (∀ x ∈ s.roster, x.2.inRange = true) ∧
    ((∀ x ∈ s.admissions, x.2.contract.inRange = true) ∧ s.admissions.length ≤ admissionPlaces) ∧
    ∀ c, s.waits c → c.inRange = true := by
  constructor
  · rintro ⟨ht, hr, ha, hl, hq, hp⟩
    refine ⟨ht, hr, ⟨ha, hl⟩, ?_⟩
    rintro c (⟨q, hm, rfl⟩ | ⟨p, h, hm, rfl⟩)
    · exact hq q hm
    · exact hp p h hm
  · rintro ⟨ht, hr, ⟨ha, hl⟩, hc⟩
    exact ⟨ht, hr, ha, hl, fun q hq => hc _ (.inl ⟨q, hq, rfl⟩), fun p h hh => hc _ (.inr ⟨p, h, hh, rfl⟩)⟩

theorem Move.admissions_inRange (h : Move R s s') (hw : Store.Wf s.admissions)
    (ha : (∀ x ∈ s.admissions, x.2.contract.inRange = true) ∧ s.admissions.length ≤ admissionPlaces) :
    (∀ x ∈ s'.admissions, x.2.contract.inRange = true) ∧ s'.admissions.length ≤ admissionPlaces := by
  cases h with
  | admissions a _ hr hl => exact ⟨hr ha.1, hl hw ha.2⟩
  | hold p q c _ _ =>
    rw [State.bookPlace_eq]
    exact ha
  | enter p c _ _ _ =>
    rw [State.enterQueue_eq, State.bookPlace_eq]
    exact ha
  | dropHeld p h _ =>
    rw [State.dropHeld_eq]
    exact ha
  | enterHeld p h _ _ _ =>
    rw [State.enterQueue_eq]
    exact ha
  | popContract q rest t tag v _ _ =>
    rw [State.applyContract_eq]
    exact ha
  | _ => exact ha

theorem Move.registersInRange (h : Move R s s') (hr : RosterSound s) (hs : RegistersInRange s) : RegistersInRange s' := by
  obtain ⟨-, hros, hadm, hwaits⟩ := registersInRange_iff.1 hs
  obtain ⟨⟨hw, -, -, hwa, -⟩, -⟩ := hr
  have hwaits' : ∀ c, s'.waits c → c.inRange = true := fun c hc => (h.waits_cases hc).elim (hwaits c) fun hc => hc.range hs
  refine registersInRange_iff.2 ⟨h.tree_inRange hw hs, fun y hy => ?_, h.admissions_inRange hwa hadm, hwaits'⟩
  obtain h | ⟨t, tag, k, hk, h⟩ := h.roster_cases hw
  · obtain ⟨e, he, hstep⟩ := h.of_mem hy
    exact hstep.range hs (hros _ he)
  · rw [h] at hy
    obtain ⟨x, hx, rfl⟩ := List.mem_map.1 hy
    split
    · exact Entry.rebooked_inRange (hros x hx) (hk hs) fun q hq => hwaits' _ (.inl ⟨q, hq, rfl⟩)
    · exact hros x hx

theorem State.modTree_inRange {t t' : TreeId} {f : Tree → Tree} (h : (s.tree t').inRange = true)
    (hf : (f (s.tree t)).inRange = true) : ((s.modTree t f).tree t').inRange = true := by
  by_cases ht : t' = t
  · subst ht
    rwa [State.modTree_tree]
  · rwa [State.modTree_tree_ne _ _ ht]

/-- The registers of every tree stay in range as a round ends: what it forgets and carries over is no register. -/
theorem Tree.roll_inRange (x : Tree) (r : Round) : (x.roll r).inRange = x.inRange := rfl

theorem Act.registersInRange (h : Act R N s s') (hr : RosterSound s) (hs : RegistersInRange s) : RegistersInRange s' := by
  cases h with
  | move h => exact h.registersInRange hr hs
  | newHome t tag serial k _ hv hh hk hb =>
    refine ⟨hs.1, fun x hx => ?_, hs.2.2⟩
    obtain rfl | hx := Store.mem_write hx
    · have hc := hk hs
      rw [Entry.inRange_eq, Bool.and_eq_true, Bool.and_eq_true]
      exact ⟨⟨hc, decide_eq_true ((Contract.inRange_iff _).1 hc).1⟩, rfl⟩
    · exact hs.2.1 x hx
  | plan t x r hx _ =>
    exact ⟨fun t' => State.modTree_inRange (f := fun _ => { x with plans := x.plans ++ [r] }) (hs.1 t')
      (hx.range hr.1.1 (hs.1 t)), hs.2⟩
  | window t w _ => exact ⟨fun t' => State.modTree_inRange (hs.1 t') (hs.1 t), hs.2⟩
  | roll =>
    refine ⟨fun t => ?_, hs.2⟩
    fin_cases t
    · exact hs.1 0
    · exact hs.1 1
    · exact hs.1 2
    · exact hs.1 3

end Sys2Proof.Machine
end

section
/-! PROOFS. The acts of the pass, of the cut and of every command. -/

namespace Sys2Proof.Machine

variable {R N : Prop} {s s' : State} {t : TreeId} {p : Port}

/-! ## The changes of the pass -/

/-- Taking the front change off the queue. -/
theorem Moves.pop {q : ChangeEntry} {rest : List ChangeEntry} (hq : s.queue = q :: rest) (hw : q.change.isWithdraw = false)
    (hc : ∀ t tag v, q.change ≠ .contract t tag v) : Moves R s { s with queue := rest } := (Move.pop s q rest hq hw hc).moves

theorem Moves.finalRecord {q : ChangeEntry} {rest : List ChangeEntry} (hq : s.queue = q :: rest)
    (hw : q.change.isWithdraw = true) (tag : Nat) (e : Entry) :
    Moves R s ({ s with queue := rest }.finalRecord t tag e) := by
  unfold State.finalRecord
  split
  · exact (Move.popWithdraw s q rest hq hw).moves
  · rename_i m hm
    refine .then ?_ (.rearm tag)
    refine .then ?_ (.meters _ (Store.wf_erase _ _) fun h x hx => h x (List.mem_of_mem_filter hx))
    refine .then (Move.popFinal s q rest _ hq hw fun h => ?_).moves (.journalRose _)
    exact h.of_meterOf hm

theorem State.finalRecord_roster (tag : Nat) (e : Entry) : (s.finalRecord t tag e).roster = s.roster := by
  unfold State.finalRecord
  split
  · rfl
  · rename_i m _
    simp only [State.rearm]
    obtain h | ⟨-, -, h⟩ := State.journalRose_cases
      ((s.appendRecord (s.recordOf true t tag e m)).releasePlace) s.journal.records.length <;> rw [h] <;> rfl

theorem Moves.applyWithdraw {q : ChangeEntry} {rest : List ChangeEntry} (hq : s.queue = q :: rest) {tag : Nat}
    (hc : q.change = .withdraw t tag) (hr : R → RegistersInRange s) :
    Moves R s ({ s with queue := rest }.applyWithdraw q t tag).state := by
  have hw : q.change.isWithdraw = true := by rw [hc]; rfl
  have hok : R → tagOk tag = true := fun h => by
    have := (hr h).2.2.2.2.1 q (by simp [hq])
    rwa [hc] at this
  unfold State.applyWithdraw
  split
  · exact (Move.popWithdraw s q rest hq hw).moves
  · rename_i e he
    split
    · exact (Move.popWithdraw s q rest hq hw).moves
    · rename_i e' he'
      refine .then (.then (.then (.finalRecord hq hw tag e) (.setEntry (e := e) ?_ ((Entry.Rests.toLeaving he').step _)))
        (.leaveHunt tag)) (Move.voidSlot _ t tag hok).moves
      rw [State.entry_of_roster (State.finalRecord_roster tag e)]
      exact State.entry_of_targetOf he

theorem Moves.applyFence (q : ChangeEntry) (tag : Nat) : Moves R s (s.applyFence q t tag).state := by
  unfold State.applyFence
  split
  · exact .refl s
  · rename_i e he
    split
    · exact .refl s
    · rename_i e' he'
      have hset : Moves R s (s.setEntry t tag e') := .setEntry (State.entry_of_targetOf he) ((Entry.Rests.applyFence he').step _)
      have hopen : Moves R s (if e.state = .timed then (s.setEntry t tag e').openMeters t tag else s.setEntry t tag e') := by
        split
        · exact hset.then (.openMeters tag)
        · exact hset
      simp only
      split
      · exact hopen
      · exact hopen.then (.leaveHunt tag)

theorem Moves.applyRelease (q : ChangeEntry) (tag : Nat) : Moves R s (s.applyRelease q t tag).state := by
  unfold State.applyRelease
  split
  · exact .refl s
  · rename_i e he
    split
    · exact .refl s
    · rename_i e' he'
      split at he'
      · exact .setEntry (State.entry_of_targetOf he) ((Entry.Rests.releaseFence he').step _)
      · cases he'

theorem Moves.applyUncap (q : ChangeEntry) (tag : Nat) : Moves R s (s.applyUncap q t tag).state := by
  unfold State.applyUncap
  split
  · exact .refl s
  · exact .setEntry (State.entry_of_targetOf ‹_›) ((Entry.Rests.capped _ false).step _)

theorem Moves.applyChange {q : ChangeEntry} {rest : List ChangeEntry} (hq : s.queue = q :: rest) (hr : R → RegistersInRange s) :
    Moves R s ({ s with queue := rest }.applyChange q).state := by
  have hpop (hw : q.change.isWithdraw = false) (hc : ∀ t tag v, q.change ≠ .contract t tag v) :
      Moves R s { s with queue := rest } := .pop hq hw hc
  unfold State.applyChange
  split
  · exact (Move.popContract s q rest _ _ _ hq ‹_›).moves
  · exact (Move.popSetting s q rest _ _ _ hq ‹_›).moves
  · exact .applyWithdraw hq ‹_› hr
  · rename_i h
    exact (hpop (by rw [h]; rfl) (by rw [h]; nofun)).then (.applyFence q _)
  · rename_i h
    exact (hpop (by rw [h]; rfl) (by rw [h]; nofun)).then (.applyRelease q _)
  · rename_i h
    exact (hpop (by rw [h]; rfl) (by rw [h]; nofun)).then (.applyUncap q _)
  · rename_i b h
    exact (hpop (by rw [h]; rfl) (by rw [h]; nofun)).then
      (Move.plain { s with queue := rest } s.openMode s.routes b s.tickets s.delivered).moves
  · rename_i k h
    exact (hpop (by rw [h]; rfl) (by rw [h]; nofun)).then (.closeTrees k)

theorem Moves.passStep (hr : R → RegistersInRange s) : Moves R s s.passStep := by
  unfold State.passStep
  split
  · exact .refl s
  · rename_i q rest hq
    exact .then (.applyChange hq hr) (.raiseAt _ _ _)

theorem Moves.sound (h : Moves R s s') (hs : RosterSound s ∧ RegistersInRange s) : RosterSound s' ∧ RegistersInRange s' :=
  Moves.keep (P := fun s => RosterSound s ∧ RegistersInRange s)
    (fun _ _ h hs => ⟨h.rosterSound hs.1, h.registersInRange hs.1 hs.2⟩) h hs

theorem Moves.passAll (n : Nat) (s : State) (hr : R → RosterSound s ∧ RegistersInRange s) : Moves R s (passAll n s) := by
  induction n generalizing s with
  | zero => exact .refl s
  | succ n ih =>
    have h : Moves R s s.passStep := .passStep fun h => (hr h).2
    exact h.then (ih _ fun hR => h.sound (hr hR))

theorem Moves.pass (hr : R → RosterSound s ∧ RegistersInRange s) : Moves R s s.pass :=
  have h := (Move.reorder (R := R) s).moves
  h.then (.passAll _ _ fun hR => h.sound (hr hR))

theorem Moves.passed (hr : R → RosterSound s ∧ RegistersInRange s) : Moves R s s.passed :=
  have h := (Move.cutTaken (R := R) s).moves
  h.then (.pass fun hR => h.sound (hr hR))

/-! ## Held requests -/

theorem State.setPort_setPort (p : Port) (x y : PortState) : (s.setPort p x).setPort p y = s.setPort p y := by
  simp [State.setPort]

theorem State.modPort_modPort (p : Port) (f g : PortState → PortState) :
    (s.modPort p f).modPort p g = s.modPort p fun x => g (f x) := by
  simp [State.modPort, State.setPort_setPort]

/-- What the waiting slot of a port with an empty in-progress slot gives: the slot is emptied, and a request in it is taken. -/
theorem State.takeWaiting_cases (hp : (s.port p).inProgress = none) :
    s.takeWaiting p = s.clearWaiting p ∨ ∃ a, s.takeWaiting p = (s.clearWaiting p).take p a := by
  unfold State.takeWaiting
  cases hw : (s.port p).waiting with
  | none =>
    refine .inl ?_
    simp only [hp]
    show s = s.setPort p { s.port p with waiting := none }
    rw [← hw]
    show s = s.setPort p (s.port p)
    simp [State.setPort, State.port]
  | some a => exact .inr ⟨a, by simp only [hp]; rfl⟩

theorem Moves.afterHeld {u : State} (h : Moves R s (u.clearWaiting p)) (hp : (u.port p).inProgress = none) (q : Byte)
    (a : Status) (r : Results) : Moves R s ((u.reply p q a r).takeWaiting p) := by
  have hp' : ((u.reply p q a r).port p).inProgress = none := by
    rw [State.reply_port]
    exact hp
  have hclear : (u.reply p q a r).clearWaiting p = (u.clearWaiting p).reply p q a r := by
    simp only [State.clearWaiting, State.reply, State.modPort_modPort]
  have hmoves : Moves R s ((u.reply p q a r).clearWaiting p) := hclear ▸ h.then (.reply p q a r)
  obtain h | ⟨b, h⟩ := State.takeWaiting_cases hp' <;> rw [h]
  · exact hmoves
  · refine hmoves.then (.take ?_ b)
    rw [State.clearWaiting, State.modPort_port]
    exact hp'

theorem State.freeSlot_inProgress (p : Port) : ((s.freeSlot p).port p).inProgress = none := by
  rw [State.freeSlot, State.modPort_port]

theorem Moves.offerHeld (p : Port) : Moves R s (s.offerHeld p) := by
  obtain h | ⟨x, hx, hm, ⟨hb, h⟩ | ⟨hb, h⟩⟩ := s.offerHeld_cases p <;> rw [h]
  · refine .afterHeld (Move.enterHeld s p x hx hm ?_).moves ?_ _ _ _
    · exact hb
    · rw [State.enterQueue_eq]
      exact State.freeSlot_inProgress p
  · have hw : x.change.isWithdraw = false := by
      cases hc : x.change with
      | withdraw t tag =>
        rw [hc] at hb
        cases hb
      | _ => rfl
    have hd := (Move.dropHeld (R := R) s p x hx).moves
    rw [State.dropHeld, hw] at hd
    exact .afterHeld hd (State.freeSlot_inProgress p) _ _ _

theorem Moves.expireHeld (p : Port) : Moves R s (s.expireHeld p) := by
  obtain h | ⟨x, hx, hm, h⟩ := s.expireHeld_cases p <;> rw [h]
  refine .afterHeld (Move.dropHeld s p x hx).moves ?_ _ _ _
  rw [State.dropHeld_eq]
  exact State.freeSlot_inProgress p

theorem Moves.openCut (hr : R → RosterSound s ∧ RegistersInRange s) : Moves R s s.openCut :=
  .then (.then (.passed hr) (.foldl _ (fun _ p => .offerHeld p) _ _)) (.foldl _ (fun _ p => .expireHeld p) _ _)

/-! ## The cut and every command -/

theorem Acts.foldl {α : Type} (f : State → α → State) (h : ∀ s a, Acts R N s (f s a)) (l : List α) (s : State) :
    Acts R N s (l.foldl f s) := by
  induction l generalizing s with
  | nil => exact .refl
  | cons a l ih => exact (h s a).trans (ih _)

theorem Acts.takeCut (hr : R → RosterSound s ∧ RegistersInRange s) : Acts R N s s.takeCut := by
  unfold State.takeCut
  split
  · exact .refl
  · exact (Moves.openCut hr).acts.trans (Acts.foldl _ (fun _ _ => .buildPlan) _ _)

/-- A request row is the arrival of its request at its port (log entry 2). -/
theorem exec_of_request {i : Instr} {q : Byte} {r : Request} (h : i.request? = some (p, q, r)) (s : State) :
    exec i s = .next (s.arrive p { seq := q, ask := .request r }) := by
  cases i <;> cases h <;> rfl

/-- What every command but POWER_ON_RESET does: moves, or the beginning of a round, its cut, or the end of a call window. -/
theorem exec_cases {i : Instr} (hi : i ≠ .powerOnReset) (h : exec i s = .next s') :
    Moves R s s' ∨ s' = s.beginRound ∨ s' = s.takeCut ∨ ∃ t light, i = .callWindowEnd t light ∧ s' = s.callWindow t light := by
  have hcut (b : Bool) : Moves R s (s.cutWhere b) ∨ s.cutWhere b = s.takeCut := by
    obtain h | ⟨-, h⟩ := s.cutWhere_cases b <;> rw [h]
    · exact .inl (.refl s)
    · exact .inr rfl
  cases hreq : i.request? with
  | some x =>
    obtain ⟨p, q, r⟩ := x
    rw [exec_of_request hreq] at h
    obtain rfl := Host.Outcome.next.inj h
    exact .inl (.arrive _)
  | none =>
    cases i with
    | powerOnReset => exact absurd rfl hi
    | requestArrival port message =>
      change execRequestArrival port message s = .next s' at h
      unfold execRequestArrival at h
      split at h
      · obtain rfl := Host.Outcome.next.inj h
        exact .inl (.refl s)
      · obtain rfl := Host.Outcome.next.inj h
        exact .inl (.arrive _)
    | waitingRequestTaken port =>
      obtain rfl := Host.Outcome.next.inj h
      exact .inl (.takeWaiting port)
    | portReset port seq =>
      obtain rfl := Host.Outcome.next.inj h
      exact .inl (.arrive _)
    | roundStart => exact .inr (.inl (Host.Outcome.next.inj h).symm)
    | cut => exact .inr (.inr (.inl (Host.Outcome.next.inj h).symm))
    | heldRequestEntry port =>
      obtain rfl := Host.Outcome.next.inj h
      exact (hcut _).imp_right fun h => .inr (.inl h)
    | heldTooLong port =>
      obtain rfl := Host.Outcome.next.inj h
      exact (hcut _).imp_right fun h => .inr (.inl h)
    | callScheduleDue tree =>
      obtain rfl := Host.Outcome.next.inj h
      exact (hcut _).imp_right fun h => .inr (.inl h)
    | darkCadenceDue tree =>
      obtain rfl := Host.Outcome.next.inj h
      exact (hcut _).imp_right fun h => .inr (.inl h)
    | darkWindowEnd tree samples =>
      obtain rfl := Host.Outcome.next.inj h
      exact .inl (.darkEnds samples)
    | callWindowEnd tree light => exact .inr (.inr (.inr ⟨tree, light, rfl, (Host.Outcome.next.inj h).symm⟩))
    | probeWindowEnd tree light =>
      obtain rfl := Host.Outcome.next.inj h
      exact .inl (.probeWindow light)
    | burstEnd tree round burst =>
      obtain rfl := Host.Outcome.next.inj h
      exact .inl (.burstEnds round burst)
    | burstRunOn tree round start =>
      obtain rfl := Host.Outcome.next.inj h
      exact .inl (.burstRunsOn round start)
    | grantEnd tree round tag light =>
      obtain rfl := Host.Outcome.next.inj h
      exact .inl (.grantEnds round tag light)
    | guardEnd tree round tag begins samples =>
      obtain rfl := Host.Outcome.next.inj h
      exact .inl (.guardEnds round tag begins samples)
    | idleStretchEnd tree samples =>
      obtain rfl := Host.Outcome.next.inj h
      exact .inl (.idleEnds samples)
    | packetOffered tree tag payload =>
      obtain rfl := Host.Outcome.next.inj h
      exact .inl (.offerPacket tag payload)
    | heldPacketTaken =>
      obtain rfl := Host.Outcome.next.inj h
      exact .inl .takeHeldPacket
    | packetDelivered =>
      obtain rfl := Host.Outcome.next.inj h
      exact .inl .deliverOldest
    | _ => cases hreq

/-- What every command but POWER_ON_RESET does is a chain of acts. -/
theorem exec_acts {i : Instr} (hi : i ≠ .powerOnReset) (hr : R → RosterSound s ∧ RegistersInRange s)
    (h : exec i s = .next s') : Acts R True s s' := by
  obtain h | h | h | ⟨t, light, -, h⟩ := exec_cases (R := R) hi h
  · exact h.acts
  · exact h ▸ Acts.beginRound
  · exact h ▸ Acts.takeCut hr
  · exact h ▸ (Homes.callWindow light).acts

/-- The part right after reset, with any commands before it. -/
def State.resetWith (l : List Instr) : State := { State.reset with pending := l }

/-- A property that reset establishes and every act keeps, of which the queue of commands is no part, every step keeps. -/
theorem step_keeps {P : State → Prop} (hreset : ∀ l, P (State.resetWith l)) (hpend : ∀ s l, P s → P { s with pending := l })
    (hact : ∀ s s', Act R True s s' → P s → P s') (hr : ∀ s, P s → R → RosterSound s ∧ RegistersInRange s)
    (hs : P s) (h : step s = .next s') : P s' := by
  unfold step at h
  split at h
  · exact Host.Outcome.next.inj h ▸ hs
  · rename_i i rest _
    have hs' := hpend s rest hs
    by_cases hi : i = .powerOnReset
    · subst hi
      cases h
      exact hreset rest
    · exact (exec_acts hi (hr _ hs') h).keep hact hs'

/-! ## The step keeps the stores and the ranges -/

theorem rosterSound_reset (l : List Instr) : RosterSound (State.resetWith l) := by
  have hnone {α : Type} (P : α → Prop) : ∀ x ∈ ([] : List α), P x := fun _ h => absurd h List.not_mem_nil
  exact ⟨⟨.nil, .nil, .nil, .nil, hnone _, hnone _⟩, .nil⟩

/-- Settles O54: no act brings a second entry of a serial or a key out of order. -/
theorem stepKeepsRosterSound : Obligations.StepKeepsRosterSound := fun _ _ =>
  step_keeps (R := False) rosterSound_reset (fun _ _ => id) (fun _ _ h => h.rosterSound) fun _ _ => False.elim

theorem resetTree_inRange : (State.reset.tree 0).inRange = true := by decide

theorem State.resetWith_tree (l : List Instr) (t : TreeId) : (State.resetWith l).tree t = State.reset.tree 0 := by
  fin_cases t <;> rfl

theorem registersInRange_reset (l : List Instr) : RegistersInRange (State.resetWith l) := by
  have hnone {α : Type} (P : α → Prop) : ∀ x ∈ ([] : List α), P x := fun _ h => absurd h List.not_mem_nil
  refine ⟨fun t => ?_, hnone _, hnone _, Nat.zero_le _, hnone _, fun p h hh => ?_⟩
  · rw [State.resetWith_tree]
    exact resetTree_inRange
  · cases p <;> cases hh

/-- Settles O55: each act that sets a register sets it within its range, and a change waits only after its checks. -/
theorem stepKeepsRegistersInRange : Obligations.StepKeepsRegistersInRange := fun _ _ hr hs h =>
  And.right (step_keeps (R := False) (P := fun s => RosterSound s ∧ RegistersInRange s)
    (fun l => ⟨rosterSound_reset l, registersInRange_reset l⟩) (fun _ _ => id)
    (fun _ _ h hs => ⟨h.rosterSound hs.1, h.registersInRange hs.1 hs.2⟩) (fun _ _ => False.elim) ⟨hr, hs⟩ h)

end Sys2Proof.Machine
end

section
/-! PROOFS. What every step keeps of the ports, the change queue and the journal (O52, O53), and that every command completes
(O3). -/

namespace Sys2Proof.Machine

variable {R N : Prop} {s s' : State} {p : Port}

/-! ## Ports -/

/-- R180, R179, R172, of one port. -/
def PortState.Sound (x : PortState) : Prop :=
  x.line = lineCondition x.threshold x.notices ∧ (x.notices.map fun e => (e.kind, e.tree)).Nodup ∧
  (x.inProgress = none → x.waiting = none)

theorem portsSound_iff : (∀ p, (s.port p).Sound) ↔ LinesShown s ∧ NoticeKeysUnique s ∧ SlotsOrdered s :=
  ⟨fun h => ⟨fun p => (h p).1, fun p => (h p).2.1, fun p => (h p).2.2⟩, fun h p => ⟨h.1 p, h.2.1 p, h.2.2 p⟩⟩

theorem State.freed_port (p p' : Port) :
    ((s.freeSlot p).clearWaiting p).port p' =
      if p' = p then { s.port p with inProgress := none, waiting := none } else s.port p' := by
  rw [State.clearWaiting, State.freeSlot, State.modPort_modPort, State.modPort_apply]

theorem State.freed_sound (h : ∀ p, (s.port p).Sound) (p p' : Port) : (((s.freeSlot p).clearWaiting p).port p').Sound := by
  rw [State.freed_port]
  split
  · exact ⟨(h p).1, (h p).2.1, fun _ => rfl⟩
  · exact h p'

theorem State.modPort_sound (h : ∀ p, (s.port p).Sound) {f : PortState → PortState} (hf : (f (s.port p)).Sound) (p' : Port) :
    ((s.modPort p f).port p').Sound := by
  rw [State.modPort_apply]
  split
  · exact hf
  · exact h p'

theorem Move.ports_sound (h : Move R s s') (hs : ∀ p, (s.port p).Sound) : ∀ p, (s'.port p).Sound := by
  cases h with
  | port p x h => exact State.modPort_sound (f := fun _ => x) hs ⟨h.line (hs p).1, h.keys (hs p).2.1, h.waiting (hs p).2.2⟩
  | hold p q c _ _ =>
    rw [State.bookPlace_eq]
    exact State.modPort_sound (f := fun _ => _) hs ⟨(hs p).1, (hs p).2.1, nofun⟩
  | enter p c _ _ _ =>
    rw [State.enterQueue_eq, State.bookPlace_eq]
    exact hs
  | dropHeld p h _ =>
    rw [State.dropHeld_eq]
    exact State.freed_sound hs p
  | enterHeld p h _ _ _ =>
    rw [State.enterQueue_eq]
    exact State.freed_sound hs p
  | allocate l a v _ _ _ _ =>
    exact State.modPort_sound (State.modPort_sound (State.modPort_sound hs (hs _)) (State.modPort_sound hs (hs _) _))
      (State.modPort_sound (State.modPort_sound hs (hs _)) (State.modPort_sound hs (hs _) _) _)
  | popContract q rest t tag v _ _ =>
    rw [State.applyContract_eq]
    exact hs
  | _ => exact hs

theorem Act.ports_sound (h : Act R N s s') (hs : ∀ p, (s.port p).Sound) : ∀ p, (s'.port p).Sound := by
  cases h with
  | move h => exact h.ports_sound hs
  | _ => exact hs

theorem portsSound_reset (l : List Instr) (p : Port) : ((State.resetWith l).port p).Sound := by
  cases p <;> exact ⟨rfl, List.nodup_nil, fun _ => rfl⟩

/-- Settles O53: no act leaves a port unsound. -/
theorem stepKeepsPortsSound : Obligations.StepKeepsPortsSound := fun _ _ hl hk ho h =>
  portsSound_iff.1 (step_keeps (R := False) (P := fun s => ∀ p, (s.port p).Sound) portsSound_reset (fun _ _ => id)
    (fun _ _ h => h.ports_sound) (fun _ _ => False.elim) (portsSound_iff.2 ⟨hl, hk, ho⟩) h)

/-! ## The allocations of the change queue (R119) -/

/-- A change to the ports that leaves the allocations, with a queue that holds no more of any port. -/
theorem QueueWithin.of_le (hs : QueueWithin s) (ha : ∀ p, (s'.port p).allocation = (s.port p).allocation)
    (hq : ∀ p, s'.queuedOf p ≤ s.queuedOf p) : QueueWithin s' := by
  refine ⟨?_, fun p => ?_⟩
  · simpa only [ha] using hs.1
  · rw [ha]
    exact (hq p).trans (hs.2 p)

theorem State.modPort_allocation (p p' : Port) {f : PortState → PortState}
    (h : (f (s.port p)).allocation = (s.port p).allocation) :
    ((s.modPort p f).port p').allocation = (s.port p').allocation := by
  rw [State.modPort_apply]
  split
  · rename_i hp
    rw [h, hp]
  · rfl

theorem State.freed_allocation (p p' : Port) :
    (((s.freeSlot p).clearWaiting p).port p').allocation = (s.port p').allocation := by
  rw [State.freed_port]
  split
  · rename_i hp
    rw [hp]
  · rfl

/-- An entry of a port that may enter finds room (R112). -/
theorem QueueWithin.enter {q : ChangeEntry} (hs : QueueWithin s) (hm : s.mayEnter q.origin = true)
    (ha : ∀ p, (s'.port p).allocation = (s.port p).allocation) (hq : s'.queue = s.queue ++ [q]) : QueueWithin s' := by
  refine ⟨?_, fun p => ?_⟩
  · simpa only [ha] using hs.1
  · have hroom : s.queuedOf q.origin < (s.port q.origin).allocation := by
      simp only [State.mayEnter, Bool.and_eq_true, decide_eq_true_eq] at hm
      exact hm.2
    have hp := hs.2 p
    rw [ha, State.queuedOf, hq, List.countP_append, List.countP_singleton]
    simp only [decide_eq_true_eq]
    split
    · rename_i ho
      subst ho
      exact hroom
    · exact hp

theorem QueueWithin.pop {q : ChangeEntry} {rest : List ChangeEntry} (hs : QueueWithin s) (hq : s.queue = q :: rest)
    (ha : s'.ports = s.ports) (hq' : s'.queue = rest) : QueueWithin s' :=
  hs.of_le (fun p => by rw [State.port_of_ports ha]) fun p => by
    simp only [State.queuedOf, hq, hq', List.countP_cons]
    omega

theorem countP_filter_append_not {α : Type} (f g : α → Bool) (l : List α) :
    (l.filter f ++ l.filter fun x => !f x).countP g = l.countP g := by
  rw [List.countP_append, ← List.countP_eq_countP_filter_add]

theorem Move.queueWithin (h : Move R s s') (hs : QueueWithin s) : QueueWithin s' := by
  cases h with
  | port p x h => exact hs.of_le (fun p' => State.modPort_allocation (f := fun _ => x) p p' h.allocation) fun _ => le_rfl
  | hold p q c _ _ =>
    rw [State.bookPlace_eq]
    exact hs.of_le (fun p' => State.modPort_allocation (f := fun _ => _) p p' rfl) fun _ => le_rfl
  | enter p c _ hm _ =>
    rw [State.enterQueue_eq, State.bookPlace_eq]
    exact hs.enter (q := ⟨p, c, s.round, false⟩) hm (fun _ => rfl) rfl
  | dropHeld p h _ =>
    rw [State.dropHeld_eq]
    exact hs.of_le (State.freed_allocation p) fun _ => le_rfl
  | enterHeld p h _ hm _ =>
    rw [State.enterQueue_eq]
    exact hs.enter (q := ⟨p, h.change, h.roundTaken, false⟩) hm (State.freed_allocation p) rfl
  | allocate l a v hsum hl ha hv =>
    refine ⟨hsum, fun p => ?_⟩
    cases p with
    | line => exact hl.elim id (hs.2 .line).trans
    | accounting => exact ha.elim id (hs.2 .accounting).trans
    | supervisor => exact hv.elim id (hs.2 .supervisor).trans
  | reorder => exact hs.of_le (fun _ => rfl) fun p => (countP_filter_append_not _ _ _).le
  | pop q rest hq _ _ => exact hs.pop hq rfl rfl
  | popSetting q rest t name v hq _ => exact hs.pop hq rfl rfl
  | popContract q rest t tag v hq _ =>
    rw [State.applyContract_eq]
    exact hs.pop hq rfl rfl
  | popWithdraw q rest hq _ => exact hs.pop hq rfl rfl
  | popFinal q rest r hq _ _ => exact hs.pop hq rfl rfl
  | voidSlot t tag _ =>
    refine hs.of_le (fun _ => rfl) fun p => ?_
    show List.countP _ (List.map _ _) ≤ _
    rw [List.countP_map]
    refine le_of_eq (List.countP_congr fun q _ => ?_)
    simp only [Function.comp]
    split <;> rfl
  | _ => exact hs

/-! ## The booked places of the journal (R161, R167) -/

/-- A port holds a WITHDRAW. -/
def PortState.holdsWithdraw (x : PortState) : Bool :=
  match x.inProgress with
  | some h => h.change.isWithdraw
  | none => false

theorem waitingWithdraws_eq : waitingWithdraws s =
    s.queue.countP (fun q => q.change.isWithdraw) + ((s.port .line).holdsWithdraw.toNat +
      (s.port .accounting).holdsWithdraw.toNat + (s.port .supervisor).holdsWithdraw.toNat) := by
  have hbool (b : Bool) : b.toNat = if b = true then 1 else 0 := by cases b <;> rfl
  show _ + List.countP (fun p => (s.port p).holdsWithdraw) allPorts = _
  simp only [allPorts, List.countP_cons, List.countP_nil, hbool]
  omega

/-- A change of one port's in-progress slot, and of the queue, moves the number of waiting WITHDRAWs by as much. -/
theorem waitingWithdraws_of_port {x : PortState} (hp : s'.port p = x) (hne : ∀ p', p' ≠ p → s'.port p' = s.port p') :
    waitingWithdraws s' + s.queue.countP (fun q => q.change.isWithdraw) + (s.port p).holdsWithdraw.toNat =
      waitingWithdraws s + s'.queue.countP (fun q => q.change.isWithdraw) + x.holdsWithdraw.toNat := by
  rw [waitingWithdraws_eq, waitingWithdraws_eq, ← hp]
  cases p
  · rw [hne .accounting nofun, hne .supervisor nofun]
    omega
  · rw [hne .line nofun, hne .supervisor nofun]
    omega
  · rw [hne .line nofun, hne .accounting nofun]
    omega

theorem waitingWithdraws_of_ports (hp : s'.ports = s.ports) :
    waitingWithdraws s' + s.queue.countP (fun q => q.change.isWithdraw) =
      waitingWithdraws s + s'.queue.countP fun q => q.change.isWithdraw := by
  rw [waitingWithdraws_eq, waitingWithdraws_eq]
  simp only [State.port_of_ports hp]
  omega

theorem PortState.holdsWithdraw_of_some {x : PortState} {h : Held} (hx : x.inProgress = some h) :
    x.holdsWithdraw = h.change.isWithdraw := by rw [PortState.holdsWithdraw, hx]

theorem PortState.holdsWithdraw_of_none {x : PortState} (hx : x.inProgress = none) : x.holdsWithdraw = false := by
  rw [PortState.holdsWithdraw, hx]

theorem State.bookPlace_journal (c : Change) :
    (s.bookPlace c).journal = { s.journal with booked := s.journal.booked + c.isWithdraw.toNat } := by
  unfold State.bookPlace
  cases c.isWithdraw <;> rfl

theorem State.dropHeld_journal (h : Held) :
    (s.dropHeld h).journal = { s.journal with booked := s.journal.booked - h.change.isWithdraw.toNat } := by
  unfold State.dropHeld
  cases h.change.isWithdraw <;> rfl

/-- What the journal and the waiting WITHDRAWs of a part are after a change that books, or releases, as many places as it lets
wait, or ends. -/
theorem JournalWithin.of_eq {b : Nat} (hs : JournalWithin s)
    (hb : s'.journal.booked = b) (hw : waitingWithdraws s' = b)
    (hl : s.journal.records.length + s.journal.booked ≤ journalPlaces → s'.journal.records.length + b ≤ journalPlaces) :
    JournalWithin s' := ⟨hb ▸ hl hs.1, hb.trans hw.symm⟩

theorem Move.journalWithin (h : Move R s s') (hs : JournalWithin s) : JournalWithin s' := by
  obtain ⟨hlen, hbooked⟩ := hs
  cases h with
  | port p x h =>
    have hw := waitingWithdraws_of_port (s := s) (s' := s.setPort p x) (State.setPort_port _ _ _) fun p' => State.setPort_port_ne _ _
    have hx : x.holdsWithdraw = (s.port p).holdsWithdraw := by simp only [PortState.holdsWithdraw, h.inProgress]
    rw [hx] at hw
    exact ⟨hlen, by simp only [State.setPort_queue, State.setPort_journal] at hw ⊢; omega⟩
  | journal j hb hl _ => exact ⟨hl hlen, hb.trans hbooked⟩
  | hold p q c hc hp =>
    have hw := waitingWithdraws_of_port (s := s) (s' := heldWith (s.bookPlace c) p q c) (State.setPort_port _ _ _)
      fun p' hp' => (State.setPort_port_ne _ _ hp').trans (State.bookPlace_port c p')
    rw [PortState.holdsWithdraw_of_none hp, PortState.holdsWithdraw_of_some rfl] at hw
    have hj : (heldWith (s.bookPlace c) p q c).journal = (s.bookPlace c).journal := rfl
    have hq : (heldWith (s.bookPlace c) p q c).queue = s.queue := State.bookPlace_queue c
    simp only [hq, Bool.toNat_false] at hw
    simp only [JournalWithin, hj, State.bookPlace_journal]
    refine ⟨?_, by omega⟩
    cases hwd : c.isWithdraw with
    | true => exact hc.place hwd
    | false => exact hlen
  | enter p c hc _ _ =>
    have hw := waitingWithdraws_of_ports (s := s) (s' := (s.bookPlace c).enterQueue p c s.round) (by
      rw [State.enterQueue_eq, State.bookPlace_eq])
    rw [State.enterQueue_queue, State.bookPlace_queue, List.countP_append, List.countP_singleton] at hw
    have hj : ((s.bookPlace c).enterQueue p c s.round).journal = (s.bookPlace c).journal := by rw [State.enterQueue_eq]
    simp only [JournalWithin, hj, State.bookPlace_journal]
    cases hwd : c.isWithdraw with
    | true =>
      simp only [hwd, if_true, Bool.toNat_true] at hw ⊢
      have := hc.place hwd
      omega
    | false =>
      simp only [hwd, Bool.false_eq_true, if_false, Bool.toNat_false] at hw ⊢
      omega
  | dropHeld p h hp =>
    have hw := waitingWithdraws_of_port (s := s) (s' := ((s.freeSlot p).dropHeld h).clearWaiting p) (p := p)
      (x := { s.port p with inProgress := none, waiting := none })
      (by rw [State.dropHeld_eq]; exact (State.freed_port p p).trans (if_pos rfl))
      fun p' hp' => by rw [State.dropHeld_eq]; exact (State.freed_port p p').trans (if_neg hp')
    rw [PortState.holdsWithdraw_of_some hp, PortState.holdsWithdraw_of_none rfl] at hw
    have hj : (((s.freeSlot p).dropHeld h).clearWaiting p).journal = ((s.freeSlot p).dropHeld h).journal := rfl
    have hq : (((s.freeSlot p).dropHeld h).clearWaiting p).queue = s.queue := by rw [State.dropHeld_eq]; rfl
    have hjf : (s.freeSlot p).journal = s.journal := rfl
    simp only [hq, Bool.toNat_false] at hw
    simp only [JournalWithin, hj, State.dropHeld_journal, hjf]
    omega
  | enterHeld p h hp _ _ =>
    have hw := waitingWithdraws_of_port (s := s)
      (s' := ((s.freeSlot p).enterQueue p h.change h.roundTaken).clearWaiting p) (p := p)
      (x := { s.port p with inProgress := none, waiting := none })
      (by rw [State.enterQueue_eq]; exact (State.freed_port p p).trans (if_pos rfl))
      fun p' hp' => by rw [State.enterQueue_eq]; exact (State.freed_port p p').trans (if_neg hp')
    rw [PortState.holdsWithdraw_of_some hp, PortState.holdsWithdraw_of_none rfl] at hw
    have hj : (((s.freeSlot p).enterQueue p h.change h.roundTaken).clearWaiting p).journal = s.journal := by
      rw [State.enterQueue_eq]; rfl
    have hq : (((s.freeSlot p).enterQueue p h.change h.roundTaken).clearWaiting p).queue =
        s.queue ++ [⟨p, h.change, h.roundTaken, false⟩] := by rw [State.enterQueue_eq]; rfl
    rw [hq, List.countP_append, List.countP_singleton] at hw
    simp only [JournalWithin, hj]
    cases hwd : h.change.isWithdraw <;> simp only [hwd, Bool.false_eq_true, if_true, if_false, Bool.toNat_true,
      Bool.toNat_false] at hw <;> omega
  | allocate l a v _ _ _ _ => exact ⟨hlen, by rw [waitingWithdraws_eq] at hbooked ⊢; exact hbooked⟩
  | reorder =>
    have hw := waitingWithdraws_of_ports (s := s)
      (s' := { s with queue := (s.queue.filter fun q => q.change.urgent) ++ s.queue.filter fun q => !q.change.urgent }) rfl
    rw [countP_filter_append_not] at hw
    exact ⟨hlen, by simp only; omega⟩
  | pop q rest hq hwd _ =>
    have hw := waitingWithdraws_of_ports (s := s) (s' := { s with queue := rest }) rfl
    rw [hq, List.countP_cons, hwd] at hw
    exact ⟨hlen, by simp only [Bool.false_eq_true, if_false] at hw ⊢; omega⟩
  | popSetting q rest t name v hq hc =>
    have hw := waitingWithdraws_of_ports (s := s)
      (s' := { s with queue := rest }.modTree t fun x => { x with settings := x.settings.put name v }) rfl
    rw [hq, List.countP_cons, hc] at hw
    refine ⟨hlen, ?_⟩
    simp only [State.modTree_queue, State.modTree_journal, Change.isWithdraw, Bool.false_eq_true, if_false] at hw ⊢
    omega
  | popContract q rest t tag v hq hc =>
    have hw := waitingWithdraws_of_ports (s := s) (s' := ({ s with queue := rest }.applyContract q t tag v).state) (by
      rw [State.applyContract_eq])
    have hj : ({ s with queue := rest }.applyContract q t tag v).state.journal = s.journal := by rw [State.applyContract_eq]
    have hq' : ({ s with queue := rest }.applyContract q t tag v).state.queue = rest := by rw [State.applyContract_eq]
    rw [hq', hq, List.countP_cons, hc] at hw
    simp only [JournalWithin, hj]
    simp only [Change.isWithdraw, Bool.false_eq_true, if_false] at hw
    omega
  | popWithdraw q rest hq hwd =>
    have hw := waitingWithdraws_of_ports (s := s) (s' := { s with queue := rest }.releasePlace) rfl
    have hj : ({ s with queue := rest }.releasePlace).journal = { s.journal with booked := s.journal.booked - 1 } := rfl
    have hq' : ({ s with queue := rest }.releasePlace).queue = rest := rfl
    rw [hq', hq, List.countP_cons, hwd] at hw
    simp only [JournalWithin, hj]
    simp only [if_true] at hw
    omega
  | popFinal q rest r hq hwd _ =>
    have hw := waitingWithdraws_of_ports (s := s) (s' := ({ s with queue := rest }.appendRecord r).releasePlace) rfl
    have hpos : 0 < s.queue.countP fun q => q.change.isWithdraw := by
      rw [hq, List.countP_cons, hwd]
      simp
    have hj : (({ s with queue := rest }.appendRecord r).releasePlace).journal =
        { s.journal with records := s.journal.records ++ [r], booked := s.journal.booked - 1 } := rfl
    have hq' : (({ s with queue := rest }.appendRecord r).releasePlace).queue = rest := rfl
    have hle : s.queue.countP (fun q => q.change.isWithdraw) ≤ waitingWithdraws s := Nat.le_add_right _ _
    rw [hq', hq, List.countP_cons, hwd] at hw
    simp only [JournalWithin, hj, List.length_append, List.length_singleton]
    simp only [if_true] at hw
    omega
  | voidSlot t tag _ =>
    have hw := waitingWithdraws_of_ports (s := s) (s' := (s.voidQueued t tag).rebook t tag) rfl
    have hq : ((s.voidQueued t tag).rebook t tag).queue.countP (fun q => q.change.isWithdraw) =
        s.queue.countP fun q => q.change.isWithdraw := by
      show List.countP _ (List.map _ _) = _
      rw [List.countP_map]
      refine List.countP_congr fun q _ => ?_
      simp only [Function.comp]
      split <;> rfl
    rw [hq] at hw
    exact ⟨hlen, by rw [hbooked.symm] at hw; exact (Nat.add_right_cancel hw).symm⟩
  | _ => exact ⟨hlen, hbooked⟩

theorem reset_allocations : (State.reset.port .line).allocation + (State.reset.port .accounting).allocation +
    (State.reset.port .supervisor).allocation ≤ 32 := by decide

theorem queueWithin_reset (l : List Instr) : QueueWithin (State.resetWith l) := ⟨reset_allocations, fun _ => Nat.zero_le _⟩

theorem journalWithin_reset (l : List Instr) : JournalWithin (State.resetWith l) := ⟨Nat.zero_le _, rfl⟩

/-- Settles O52: an entry finds room as it enters, and places are booked and released with the WITHDRAWs that wait. -/
theorem stepKeepsQueueAndJournal : Obligations.StepKeepsQueueAndJournal := by
  refine ⟨fun s s' hs h => ?_, fun s s' hs h => ?_⟩
  · refine step_keeps (R := False) (P := QueueWithin) queueWithin_reset (fun _ _ => id) (fun s s' h hs => ?_)
      (fun _ _ => False.elim) hs h
    cases h with
    | move h => exact h.queueWithin hs
    | _ => exact hs
  · refine step_keeps (R := False) (P := JournalWithin) journalWithin_reset (fun _ _ => id) (fun s s' h hs => ?_)
      (fun _ _ => False.elim) hs h
    cases h with
    | move h => exact h.journalWithin hs
    | _ => exact hs

/-! ## Every command completes -/

theorem Move.pending (h : Move R s s') : s'.pending = s.pending := by
  cases h with
  | hold p q c _ _ => rw [State.bookPlace_eq]; rfl
  | enter p c _ _ _ => rw [State.enterQueue_eq, State.bookPlace_eq]
  | dropHeld p h _ => rw [State.dropHeld_eq]; rfl
  | enterHeld p h _ _ _ => rw [State.enterQueue_eq]; rfl
  | popContract q rest t tag v _ _ => rw [State.applyContract_eq]
  | _ => rfl

theorem Acts.pending (h : Acts R N s s') : s'.pending = s.pending :=
  Acts.keep (P := fun u => u.pending = s.pending) (fun u u' h hu => by
    cases h with
    | move h => exact h.pending.trans hu
    | _ => exact hu) h rfl

theorem exec_completes (c : Instr) (s : State) : ∃ t, exec c s = .next t := by
  cases c with
  | requestArrival port message =>
    cases hm : decodeMessage message with
    | none => exact ⟨s, by simp only [exec, execRequestArrival, hm]⟩
    | some a => exact ⟨s.arrive port a, by simp only [exec, execRequestArrival, hm]⟩
  | _ => exact ⟨_, rfl⟩

/-- Settles O3: what a command does is a chain of acts, and none of them touches the queue of commands. -/
theorem everyCommandCompletes : Obligations.EveryCommandCompletes := by
  intro c s
  obtain ⟨t, ht⟩ := exec_completes c s
  refine ⟨t, ht, ?_⟩
  by_cases hc : c = .powerOnReset
  · subst hc
    cases ht
    rfl
  · exact Acts.pending (R := False) (exec_acts hc False.elim ht)

end Sys2Proof.Machine
end

section
/-! PROOFS. What every step keeps of the trees: tags and delays (O57), orders and hunts (O59), buffers and meters (O60). -/

namespace Sys2Proof.Machine

variable {R N : Prop} {s s' : State} {t : TreeId}

/-! ## Trees -/

/-- What a move makes of a tree: what a rule of the tree may, the roster staying as it is, or no more than a setting or a booked
width that a change carries. -/
theorem Move.tree_cases (h : Move R s s') (t : TreeId) :
    s'.roster = s.roster ∧ TreeStep s t (s'.tree t) ∨
      ∃ x bc bd, s'.tree t = { s.tree t with settings := x, bookedCall := bc, bookedDark := bd } ∧
        (ChangesMayWait s → x.target = (s.tree t).settings.target) := by
  have hsame {u : State} (hu : u.tree t = s.tree t) : ∃ x bc bd,
      u.tree t = { s.tree t with settings := x, bookedCall := bc, bookedDark := bd } ∧
        (ChangesMayWait s → x.target = (s.tree t).settings.target) := ⟨_, _, _, hu, fun _ => rfl⟩
  have henter {c : Change} {r : Round} {p : Port} {u : State} (hu : u.tree t = s.tree t) : ∃ x bc bd,
      (u.enterQueue p c r).tree t = { s.tree t with settings := x, bookedCall := bc, bookedDark := bd } ∧
        (ChangesMayWait s → x.target = (s.tree t).settings.target) := by
    obtain h | ⟨v, ⟨-, h⟩ | ⟨-, h⟩⟩ := State.enterQueue_tree_cases (s := u) p c r t
    · exact hsame (h.trans hu)
    · exact ⟨_, _, _, h.trans (by rw [hu]), fun _ => rfl⟩
    · exact ⟨_, _, _, h.trans (by rw [hu]), fun _ => rfl⟩
  cases h with
  | tree t' x h =>
    by_cases ht : t = t'
    · subst ht
      rw [State.setTree_tree]
      exact .inl ⟨rfl, h⟩
    · exact .inr (hsame (State.setTree_tree_ne _ _ ht))
  | hold p q c _ _ =>
    rw [State.bookPlace_eq]
    exact .inr (hsame rfl)
  | enter p c _ _ _ => exact .inr (henter (State.tree_of_trees (State.bookPlace_trees c) t))
  | dropHeld p h _ =>
    rw [State.dropHeld_eq]
    exact .inr (hsame rfl)
  | enterHeld p h _ _ _ => exact .inr (henter rfl)
  | popSetting q rest t' name v hq hc =>
    by_cases ht : t = t'
    · subst ht
      refine .inr ⟨_, _, _, State.modTree_tree _ _ _, fun hw => Settings.put_target ?_ v⟩
      have := hw.1 q (by simp [hq])
      rw [hc] at this
      rintro rfl
      cases this
    · exact .inr (hsame (State.modTree_tree_ne _ _ ht))
  | popContract q rest t' tag v _ _ =>
    rw [State.applyContract_eq]
    exact .inr (hsame rfl)
  | _ => exact .inr (hsame rfl)

theorem Act.tree_cases {P : Tree → Prop} (h : Act R N s s') (t : TreeId) (hmove : ∀ s', Move R s s' → P (s'.tree t))
    (hsame : P (s.tree t)) (hplan : ∀ x r, TreeStep s t x → (∀ g ∈ r.grants, tagOk g.tag = true) → P { x with plans := x.plans ++ [r] })
    (hwindow : ∀ w, (TagsInRange s → ∀ tag y n, w.kind = .probe tag y n → tagOk tag = true) →
      P { s.tree t with engine := { (s.tree t).engine with windows := (s.tree t).engine.windows ++ [w] } })
    (hroll : P ((s.tree t).roll s.round)) : P (s'.tree t) := by
  cases h with
  | move h => exact hmove _ h
  | newHome t' tag serial k _ hv hh hr hb => exact hsame
  | plan t' x r hx hg =>
    by_cases ht : t = t'
    · subst ht
      rw [State.setTree_tree]
      exact hplan x r hx hg
    · rwa [State.setTree_tree_ne _ _ ht]
  | window t' w hw =>
    by_cases ht : t = t'
    · subst ht
      rw [State.modEngine_tree]
      exact hwindow w hw
    · rwa [State.modEngine, State.modTree_tree_ne _ _ ht]
  | roll =>
    fin_cases t
    · exact hroll
    · exact hroll
    · exact hroll
    · exact hroll

/-! ## Tags (R17) -/

theorem Tree.roll_tagsOk {x : Tree} (h : x.TagsOk) (r : Round) : (x.roll r).TagsOk := by
  obtain ⟨hplans, -, hwin, hchosen, hbooked⟩ := h
  refine ⟨fun y hy => hplans y (List.mem_of_mem_filter hy), ?_, fun w hw => hwin w (List.mem_of_mem_filter hw), hchosen, hbooked⟩
  intro c hc
  simp only [Tree.roll] at hc
  split at hc
  · rename_i g hg
    split at hc
    · cases hc
      obtain ⟨y, hy, hlast⟩ := Option.bind_eq_some_iff.1 hg
      exact hplans y (List.mem_of_find?_eq_some hy) g (List.mem_of_mem_getLast? hlast)
    · cases hc
  · cases hc

theorem Move.tagsInRange (h : Move R s s') (hs : TagsInRange s) : TagsInRange s' := fun t => by
  show (s'.tree t).TagsOk
  obtain ⟨-, h⟩ | ⟨x, bc, bd, h, -⟩ := h.tree_cases t
  · exact h.tags (hs t)
  · rw [h]
    exact hs t

theorem Act.tagsInRange (h : Act R N s s') (hs : TagsInRange s) : TagsInRange s' := fun t => by
  refine h.tree_cases (P := Tree.TagsOk) t (fun _ h => h.tagsInRange hs t) (hs t) (fun x r hx hg => ?_) (fun w hw => ?_)
    (Tree.roll_tagsOk (hs t) _)
  · obtain ⟨hplans, hrest⟩ := hx.tags (hs t)
    exact ⟨List.forall_mem_append.2 ⟨hplans, List.forall_mem_singleton.2 hg⟩, hrest⟩
  · obtain ⟨hplans, hcarried, hwin, hrest⟩ := hs t
    exact ⟨hplans, hcarried, List.forall_mem_append.2 ⟨hwin, List.forall_mem_singleton.2 (hw hs)⟩, hrest⟩

/-! ## Delays (R19) -/

theorem changesMayWait_iff : ChangesMayWait s ↔ ∀ c, s.waits c → c.mayWait = true := by
  constructor
  · rintro ⟨hq, hp⟩
    rintro c (⟨q, hm, rfl⟩ | ⟨p, h, hm, rfl⟩)
    · exact hq q hm
    · exact hp p h hm
  · exact fun hc => ⟨fun q hq => hc _ (.inl ⟨q, hq, rfl⟩), fun p h hh => hc _ (.inr ⟨p, h, hh, rfl⟩)⟩

theorem Move.changesMayWait (h : Move R s s') (hs : ChangesMayWait s) : ChangesMayWait s' :=
  changesMayWait_iff.2 fun c hc => (h.waits_cases hc).elim (changesMayWait_iff.1 hs c) Stageable.mayWait

/-- A property of the entries of a tree, slot by slot. -/
theorem State.forall_treeEntries {P : Entry → Prop} :
    (∀ y ∈ s.treeEntries t, P y.2) ↔ ∀ x ∈ s.roster, slotTree x.1 = t.val → P x.2 := by
  constructor
  · exact fun h x hx ht => h (slotTag x.1, x.2) (State.mem_treeEntries.2 ⟨x.1, hx, ht, rfl⟩)
  · intro h y hy
    obtain ⟨k, hk, ht, -⟩ := State.mem_treeEntries.1 hy
    exact h (k, y.2) hk ht

/-- Every entry after a move, but for its booking, is what a rule makes of one before it. -/
theorem Move.of_mem (h : Move R s s') (hw : Store.Wf s.roster) {y : Nat × Entry} (hy : y ∈ s'.roster) :
    ∃ e, (y.1, e) ∈ s.roster ∧ (EntryStep s y.1 e y.2 ∨ ∃ k b, y.2 = { e with contract := k, booked := b }) := by
  obtain h | ⟨t, tag, k, -, h⟩ := h.roster_cases hw
  · obtain ⟨e, he, h⟩ := h.of_mem hy
    exact ⟨e, he, .inl h⟩
  · rw [h] at hy
    obtain ⟨x, hx, rfl⟩ := List.mem_map.1 hy
    split
    · exact ⟨x.2, hx, .inr ⟨_, _, rfl⟩⟩
    · exact ⟨x.2, hx, .inl (.refl _ _)⟩

theorem Move.delaysWithin (h : Move R s s') (hw : Store.Wf s.roster) (htags : TagsInRange s) (hs : DelaysWithin s) :
    DelaysWithin s' := by
  obtain ⟨hwait, hdelays⟩ := hs
  refine ⟨h.changesMayWait hwait, fun t => ?_⟩
  obtain ⟨hroster, htree⟩ | ⟨x, bc, bd, htree, htarget⟩ := h.tree_cases t
  · rw [State.treeEntries, hroster]
    exact fun y hy => htree.delays y hy (hdelays t y hy)
  · rw [htree, htarget hwait, State.forall_treeEntries (P := Entry.delaysWithin _)]
    intro y hy ht
    obtain ⟨e, he, h⟩ := h.of_mem hw hy
    have hd := (State.forall_treeEntries (P := Entry.delaysWithin _)).1 (hdelays t) _ he ht
    obtain h | ⟨k, b, h⟩ := h
    · exact h.delays htags t ht.symm hd
    · rw [h]
      exact hd

/-- The entries after an act that brings no new home. -/
theorem State.treeEntries_of_roster (h : s'.roster = s.roster) (t : TreeId) : s'.treeEntries t = s.treeEntries t := by
  rw [State.treeEntries, h, State.treeEntries]

theorem Act.delaysWithin (h : Act R N s s') (hw : Store.Wf s.roster) (htags : TagsInRange s) (hs : DelaysWithin s) :
    DelaysWithin s' := by
  cases h with
  | move h => exact h.delaysWithin hw htags hs
  | newHome t tag serial k _ hv hh hr hb =>
    refine ⟨hs.1, fun t' => ?_⟩
    rw [State.forall_treeEntries (P := Entry.delaysWithin _)]
    intro y hy ht
    obtain rfl | hy := Store.mem_write hy
    · exact ⟨nofun, trivial⟩
    · exact (State.forall_treeEntries (P := Entry.delaysWithin _)).1 (hs.2 t') y hy ht
  | plan t x r hx hg =>
    refine ⟨hs.1, fun t' y hy => ?_⟩
    by_cases ht : t' = t
    · subst ht
      rw [State.setTree_tree]
      exact hx.delays y hy (hs.2 t' y hy)
    · rw [State.setTree_tree_ne _ _ ht]
      exact hs.2 t' y hy
  | window t w _ =>
    refine ⟨hs.1, fun t' y hy => ?_⟩
    by_cases ht : t' = t
    · subst ht
      rw [State.modEngine_tree]
      exact hs.2 t' y hy
    · rw [State.modEngine, State.modTree_tree_ne _ _ ht]
      exact hs.2 t' y hy
  | roll =>
    refine ⟨hs.1, fun t y hy => ?_⟩
    have := hs.2 t y hy
    fin_cases t <;> exact this

theorem resetTree_tagsOk : (State.reset.tree 0).TagsOk := ⟨nofun, nofun, nofun, nofun, nofun⟩

theorem tagsInRange_reset (l : List Instr) : TagsInRange (State.resetWith l) := fun t => by
  show ((State.resetWith l).tree t).TagsOk
  rw [State.resetWith_tree]
  exact resetTree_tagsOk

theorem changesMayWait_reset (l : List Instr) : ChangesMayWait (State.resetWith l) := by
  refine ⟨fun _ h => absurd h List.not_mem_nil, fun p h hh => ?_⟩
  cases p <;> cases hh

theorem delaysWithin_reset (l : List Instr) : DelaysWithin (State.resetWith l) :=
  ⟨changesMayWait_reset l, fun _ _ h => absurd h List.not_mem_nil⟩

/-- Settles O57: a T is lowered only with every delay clamped to it, and a tag is named only of a slot that holds an entry. -/
theorem stepKeepsDelaysWithin : Obligations.StepKeepsDelaysWithin := fun _ _ hr ht hd h =>
  And.right (step_keeps (R := False) (P := fun s => RosterSound s ∧ TagsInRange s ∧ DelaysWithin s)
    (fun l => ⟨rosterSound_reset l, tagsInRange_reset l, delaysWithin_reset l⟩) (fun _ _ => id)
    (fun _ _ h hs => ⟨h.rosterSound hs.1, h.tagsInRange hs.2.1, h.delaysWithin hs.1.1.1 hs.2.1 hs.2.2⟩)
    (fun _ _ => False.elim) ⟨hr, ht, hd⟩ h)

/-! ## Orders and hunts (R140, R31, R65, R1) -/

/-- R1, R31, R65, R140 together. -/
def OrdersSound (s : State) : Prop := DropsAlone s ∧ SuspicionHeld s ∧ HushedOwesWake s

theorem Move.dropsAlone (h : Move R s s') (hw : Store.Wf s.roster) (hs : DropsAlone s) : DropsAlone s' := fun y hy => by
  obtain ⟨e, he, h | ⟨k, b, h⟩⟩ := h.of_mem hw hy
  · exact h.drops (hs _ he)
  · rw [h]
    exact hs _ he

theorem Move.suspicionHeld (h : Move R s s') (hs : SuspicionHeld s) : SuspicionHeld s' := fun t => by
  obtain ⟨-, h⟩ | ⟨x, bc, bd, h, -⟩ := h.tree_cases t
  · exact h.suspicion (hs t)
  · rw [h]
    exact hs t

theorem State.not_hunting_iff : s.hunting t = false ↔ ¬ (s.tree t).InHunt := by
  rw [← State.hunting_iff, Bool.not_eq_true]

theorem Move.hushedOwesWake (h : Move R s s') (hw : Store.Wf s.roster) (hs : OrdersSound s) : HushedOwesWake s' := by
  intro t ht
  show ∀ y ∈ s'.treeEntries t, Entry.WakeOwed y.2
  obtain ⟨hdrops, hsus, hhush⟩ := hs
  by_cases hn : s.hunting t = false
  · rw [State.forall_treeEntries]
    intro y hy hk
    obtain ⟨e, he, h⟩ := h.of_mem hw hy
    have hold := (State.forall_treeEntries (P := Entry.WakeOwed)).1 (hhush t hn) _ he hk
    obtain h | ⟨k, b, h⟩ := h
    · exact h.wakes t hk.symm hn (hdrops _ he) hold
    · rw [h]
      exact hold
  · have hin : (s.tree t).InHunt := State.hunting_iff.1 (by simpa using hn)
    have hout := State.not_hunting_iff.1 ht
    obtain ⟨hroster, h⟩ | ⟨x, bc, bd, h, -⟩ := h.tree_cases t
    · rw [State.treeEntries_of_roster hroster]
      exact h.wakes hdrops hsus hin hout
    · rw [h] at hout
      exact absurd hin hout

theorem Act.ordersSound (h : Act R N s s') (hw : Store.Wf s.roster) (hs : OrdersSound s) : OrdersSound s' := by
  cases h with
  | move h => exact ⟨h.dropsAlone hw hs.1, h.suspicionHeld hs.2.1, h.hushedOwesWake hw hs⟩
  | newHome t tag serial k _ hv hh hr hb =>
    refine ⟨fun y hy => ?_, hs.2.1, fun t' ht => ?_⟩
    · obtain rfl | hy := Store.mem_write hy
      · exact ⟨nofun, nofun⟩
      · exact hs.1 y hy
    · show ∀ y ∈ State.treeEntries _ t', Entry.WakeOwed y.2
      rw [State.forall_treeEntries]
      intro y hy hk
      obtain rfl | hy := Store.mem_write hy
      · exact nofun
      · exact (State.forall_treeEntries (P := Entry.WakeOwed)).1 (hs.2.2 t' ht) y hy hk
  | plan t x r hx hg =>
    obtain ⟨hdrops, hsus, hhush⟩ := hs
    refine ⟨hdrops, fun t' => ?_, fun t' ht => ?_⟩
    · by_cases he : t' = t
      · subst he
        rw [State.setTree_tree]
        exact hx.suspicion (hsus t')
      · rw [State.setTree_tree_ne _ _ he]
        exact hsus t'
    · have hout := State.not_hunting_iff.1 ht
      by_cases he : t' = t
      · subst he
        rw [State.setTree_tree] at hout
        by_cases hn : s.hunting t' = false
        · exact hhush t' hn
        · exact hx.wakes hdrops hsus (State.hunting_iff.1 (by simpa using hn)) hout
      · rw [State.setTree_tree_ne _ _ he] at hout
        exact hhush t' (State.not_hunting_iff.2 hout)
  | window t w _ =>
    refine ⟨hs.1, fun t' => ?_, fun t' ht => ?_⟩
    · by_cases he : t' = t
      · subst he
        rw [State.modEngine_tree]
        exact hs.2.1 t'
      · rw [State.modEngine, State.modTree_tree_ne _ _ he]
        exact hs.2.1 t'
    · have hout := State.not_hunting_iff.1 ht
      refine hs.2.2 t' (State.not_hunting_iff.2 ?_)
      by_cases he : t' = t
      · subst he
        rw [State.modEngine_tree] at hout
        exact hout
      · rwa [State.modEngine, State.modTree_tree_ne _ _ he] at hout
  | roll =>
    refine ⟨hs.1, fun t => ?_, fun t => ?_⟩
    · have := hs.2.1 t
      fin_cases t <;> exact this
    · have := hs.2.2 t
      fin_cases t <;> exact this

theorem ordersSound_reset (l : List Instr) : OrdersSound (State.resetWith l) := by
  refine ⟨fun _ h => absurd h List.not_mem_nil, fun t _ => ?_, fun _ _ _ h => absurd h List.not_mem_nil⟩
  rw [State.resetWith_tree]
  rfl

/-- Settles O59: each rule that hushes acts in a hunt, and each that ends one wakes what is hushed. -/
theorem stepKeepsHushedOwingWake : Obligations.StepKeepsHushedOwingWake := fun _ _ hr hd hsus hh h =>
  And.right (step_keeps (R := False) (P := fun s => RosterSound s ∧ OrdersSound s)
    (fun l => ⟨rosterSound_reset l, ordersSound_reset l⟩) (fun _ _ => id)
    (fun _ _ h hs => ⟨h.rosterSound hs.1, h.ordersSound hs.1.1.1 hs.2⟩)
    (fun _ _ => False.elim) ⟨hr, hd, hsus, hh⟩ h)

/-! ## Buffers and meters (R70, R71, R80, R147, R149) -/

theorem Move.buffer (h : Move R s s') (hs : BuffersWithin s) (t : TreeId) : (s'.tree t).BufferOk := by
  obtain ⟨-, h⟩ | ⟨x, bc, bd, h, -⟩ := h.tree_cases t
  · exact h.buffer hs
  · rw [h]
    exact hs.2.1 t

theorem Move.buffersWithin (h : Move R s s') (hs : BuffersWithin s) : BuffersWithin s' := by
  have hbuffer := h.buffer hs
  obtain ⟨hup, -, hheld⟩ := hs
  have hrest : upBytes s'.upBuffer ≤ bufferBytes ∧ ∀ p ∈ s'.heldPacket, p.packet.fits = true := by
    clear hbuffer
    cases h with
    | upBuffer b h => exact ⟨h hup, hheld⟩
    | heldPacket o h => exact ⟨hup, h hheld⟩
    | hold p q c _ _ =>
      rw [State.bookPlace_eq]
      exact ⟨hup, hheld⟩
    | enter p c _ _ _ =>
      rw [State.enterQueue_eq, State.bookPlace_eq]
      exact ⟨hup, hheld⟩
    | dropHeld p h _ =>
      rw [State.dropHeld_eq]
      exact ⟨hup, hheld⟩
    | enterHeld p h _ _ _ =>
      rw [State.enterQueue_eq]
      exact ⟨hup, hheld⟩
    | popContract q rest t tag v _ _ =>
      rw [State.applyContract_eq]
      exact ⟨hup, hheld⟩
    | _ => exact ⟨hup, hheld⟩
  exact ⟨hrest.1, hbuffer, hrest.2⟩

theorem Act.buffersWithin (h : Act R N s s') (hs : BuffersWithin s) : BuffersWithin s' := by
  have hbuffer (t : TreeId) : (s'.tree t).BufferOk :=
    h.tree_cases (P := Tree.BufferOk) t (fun _ h => h.buffer hs t) (hs.2.1 t) (fun _ _ hx _ => hx.buffer hs)
      (fun _ _ => hs.2.1 t) (hs.2.1 t)
  cases h with
  | move h => exact h.buffersWithin hs
  | _ => exact ⟨hs.1, hbuffer, hs.2.2⟩

theorem Move.metersInRange (h : Move R s s') (hs : MetersInRange s) : MetersInRange s' := by
  cases h with
  | meters m _ hr => exact ⟨hr hs.1, hs.2⟩
  | journal j _ _ hm => exact ⟨hs.1, hm hs⟩
  | hold p q c _ _ =>
    refine ⟨by rw [State.bookPlace_eq]; exact hs.1, ?_⟩
    show ∀ r ∈ (s.bookPlace c).journal.records, _
    rw [State.bookPlace_journal]
    exact hs.2
  | enter p c _ _ _ =>
    rw [State.enterQueue_eq]
    refine ⟨by rw [State.bookPlace_eq]; exact hs.1, ?_⟩
    show ∀ r ∈ (s.bookPlace c).journal.records, _
    rw [State.bookPlace_journal]
    exact hs.2
  | dropHeld p h _ =>
    refine ⟨by rw [State.dropHeld_eq]; exact hs.1, ?_⟩
    show ∀ r ∈ ((s.freeSlot p).dropHeld h).journal.records, _
    rw [State.dropHeld_journal]
    exact hs.2
  | enterHeld p h _ _ _ =>
    rw [State.enterQueue_eq]
    exact hs
  | popContract q rest t tag v _ _ =>
    rw [State.applyContract_eq]
    exact hs
  | popFinal q rest r _ _ hr => exact ⟨hs.1, List.forall_mem_append.2 ⟨hs.2, List.forall_mem_singleton.2 (hr hs)⟩⟩
  | _ => exact hs

theorem resetTree_bufferOk : (State.reset.tree 0).BufferOk := ⟨Nat.zero_le _, nofun⟩

theorem buffersWithin_reset (l : List Instr) : BuffersWithin (State.resetWith l) := by
  refine ⟨Nat.zero_le _, fun t => ?_, nofun⟩
  show ((State.resetWith l).tree t).BufferOk
  rw [State.resetWith_tree]
  exact resetTree_bufferOk

theorem metersInRange_reset (l : List Instr) : MetersInRange (State.resetWith l) :=
  ⟨fun _ h => absurd h List.not_mem_nil, fun _ h => absurd h List.not_mem_nil⟩

/-- Settles O60: a packet joins a buffer only where it fits, and every sum of a meter saturates. -/
theorem stepKeepsBuffersAndMeters : Obligations.StepKeepsBuffersAndMeters := by
  refine ⟨fun s s' hs h => ?_, fun s s' hs h => ?_⟩
  · exact step_keeps (R := False) (P := BuffersWithin) buffersWithin_reset (fun _ _ => id) (fun _ _ h => h.buffersWithin)
      (fun _ _ => False.elim) hs h
  · refine step_keeps (R := False) (P := MetersInRange) metersInRange_reset (fun _ _ => id) (fun s s' h hs => ?_)
      (fun _ _ => False.elim) hs h
    cases h with
    | move h => exact h.metersInRange hs
    | _ => exact hs

end Sys2Proof.Machine
end

section
/-! PROOFS. The plan and window records of a tree stay within their three rounds (O58). -/

namespace Sys2Proof.Machine

variable {R N : Prop} {s s' : State} {t t' : TreeId}

/-- A property that reset establishes, and every move, ROUND_START, the cut and the end of a call window keep, every step keeps. -/
theorem step_keeps_of_cases {P : State → Prop} {C : State → TreeId → Prop} (hreset : ∀ l, P (State.resetWith l))
    (hpend : ∀ s l, P s → P { s with pending := l }) (hmove : ∀ s s', Moves R s s' → P s → P s')
    (hround : ∀ s, P s → P s.beginRound) (hcut : ∀ s, P s → P s.takeCut)
    (hcall : ∀ s t light, C s t → P s → P (s.callWindow t light)) (hs : P s)
    (hC : ∀ t light rest, s.pending = .callWindowEnd t light :: rest → C { s with pending := rest } t)
    (h : step s = .next s') : P s' := by
  unfold step at h
  split at h
  · exact Host.Outcome.next.inj h ▸ hs
  · rename_i i rest hp
    have hs' := hpend s rest hs
    by_cases hi : i = .powerOnReset
    · subst hi
      obtain rfl := Host.Outcome.next.inj h
      exact hreset rest
    · obtain hm | hm | hm | ⟨t, light, rfl, hm⟩ := exec_cases (R := R) hi h
      · exact hmove _ _ hm hs'
      · exact hm ▸ hround _ hs'
      · exact hm ▸ hcut _ hs'
      · exact hm ▸ hcall _ t light (hC t light rest hp) hs'

/-! ## Records of three rounds (R11, R41, R106) -/

/-- One record a round, of a round, the next, and, where a cut is made, the one after. -/
def RoundsCurrent (n : Round) (cut : Bool) (l : List Round) : Prop :=
  l.Nodup ∧ ∀ r ∈ l, r = n ∨ r = n + 1 ∨ (cut = true ∧ r = n + 2)

theorem RoundsCurrent.sublist {n : Round} {cut : Bool} {l l' : List Round} (h : RoundsCurrent n cut l) (hl : l'.Sublist l) :
    RoundsCurrent n cut l' := ⟨h.1.sublist hl, fun r hr => h.2 r (hl.subset hr)⟩

theorem RoundsCurrent.mono {n : Round} {cut cut' : Bool} {l : List Round} (h : RoundsCurrent n cut l)
    (hc : cut = true → cut' = true) : RoundsCurrent n cut' l :=
  ⟨h.1, fun r hr => (h.2 r hr).imp_right (Or.imp_right (And.imp_left hc))⟩

/-- Before the cut there is no record of the round after next: one may be added. -/
theorem RoundsCurrent.append {n : Round} {l : List Round} (h : RoundsCurrent n false l) : RoundsCurrent n true (l ++ [n + 2]) := by
  refine ⟨?_, List.forall_mem_append.2 ⟨(h.mono nofun).2, List.forall_mem_singleton.2 (.inr (.inr ⟨rfl, rfl⟩))⟩⟩
  refine List.nodup_append.2 ⟨h.1, List.nodup_singleton _, fun a ha b hb => ?_⟩
  rw [List.mem_singleton.1 hb]
  obtain rfl | rfl | ⟨hc, -⟩ := h.2 a ha
  · simp only [Round] at *
    bv_omega
  · simp only [Round] at *
    bv_omega
  · cases hc

/-- As a round ends its own records go, and the rounds that are left are the next and the one after it. -/
theorem RoundsCurrent.roll {n : Round} {cut : Bool} {l : List Round} (h : RoundsCurrent n cut l) :
    RoundsCurrent (n + 1) false (l.filter fun r => r ≠ n) := by
  refine ⟨h.1.sublist List.filter_sublist, fun r hr => ?_⟩
  obtain ⟨hr, hne⟩ := List.mem_filter.1 hr
  obtain rfl | rfl | ⟨-, rfl⟩ := h.2 r hr
  · exact absurd rfl (of_decide_eq_true hne)
  · exact .inl rfl
  · exact .inr (.inl (by rw [BitVec.add_assoc]; rfl))

/-- R11, R41, R106, of one tree. -/
def Tree.Current (n : Round) (cut : Bool) (x : Tree) : Prop :=
  RoundsCurrent n cut (x.plans.map PlanRecord.round) ∧ RoundsCurrent n cut (x.engine.windows.map WindowRecord.round)

theorem current_iff : (∀ t, (s.tree t).Current s.round s.cutTaken) ↔ PlansCurrent s ∧ WindowsCurrent s := by
  simp only [Tree.Current, RoundsCurrent, PlansCurrent, WindowsCurrent, List.forall_mem_map, forall_and]

theorem Tree.Current.sublist {n : Round} {cut : Bool} {x y : Tree} (h : x.Current n cut) (hp : y.plans.Sublist x.plans)
    (hw : y.engine.windows.Sublist x.engine.windows) : y.Current n cut := ⟨h.1.sublist (hp.map _), h.2.sublist (hw.map _)⟩

theorem Tree.Current.mono {n : Round} {cut cut' : Bool} {x : Tree} (h : x.Current n cut) (hc : cut = true → cut' = true) :
    x.Current n cut' := ⟨h.1.mono hc, h.2.mono hc⟩

theorem Tree.Current.roll {n : Round} {cut : Bool} {x : Tree} (h : x.Current n cut) : (x.roll n).Current (n + 1) false := by
  refine ⟨?_, ?_⟩
  · have := h.1.roll
    rwa [List.filter_map] at this
  · have := h.2.roll
    rwa [List.filter_map] at this

/-! ## Moves, new homes and rounds -/

theorem Move.current {n : Round} {cut : Bool} (h : Move R s s') (hs : (s.tree t).Current n cut) : (s'.tree t).Current n cut := by
  obtain ⟨-, h⟩ | ⟨x, bc, bd, h, -⟩ := h.tree_cases t
  · exact hs.sublist h.plans h.windows
  · rw [h]
    exact hs

theorem Moves.current {n : Round} {cut : Bool} (h : Moves R s s') (hs : (s.tree t).Current n cut) :
    (s'.tree t).Current n cut := Moves.keep (P := fun s => (s.tree t).Current n cut) (fun _ _ h => h.current) h hs

theorem Move.round_cutTaken (h : Move R s s') : s'.round = s.round ∧ (s.cutTaken = true → s'.cutTaken = true) := by
  cases h with
  | cutTaken => exact ⟨rfl, fun _ => rfl⟩
  | hold p q c _ _ => rw [State.bookPlace_eq]; exact ⟨rfl, id⟩
  | enter p c _ _ _ => rw [State.enterQueue_eq, State.bookPlace_eq]; exact ⟨rfl, id⟩
  | dropHeld p h _ => rw [State.dropHeld_eq]; exact ⟨rfl, id⟩
  | enterHeld p h _ _ _ => rw [State.enterQueue_eq]; exact ⟨rfl, id⟩
  | popContract q rest t tag v _ _ => rw [State.applyContract_eq]; exact ⟨rfl, id⟩
  | _ => exact ⟨rfl, id⟩

theorem Moves.round_cutTaken (h : Moves R s s') : s'.round = s.round ∧ (s.cutTaken = true → s'.cutTaken = true) :=
  Moves.keep (P := fun u => u.round = s.round ∧ (s.cutTaken = true → u.cutTaken = true))
    (fun _ _ h hu => ⟨h.round_cutTaken.1.trans hu.1, fun hc => h.round_cutTaken.2 (hu.2 hc)⟩) h ⟨rfl, id⟩

/-- R11, R41, R106, of the part. -/
def Current (s : State) : Prop := ∀ t, (s.tree t).Current s.round s.cutTaken

theorem Moves.keeps_current (h : Moves R s s') (hs : Current s) : Current s' := fun t => by
  rw [h.round_cutTaken.1]
  exact (h.current (hs t)).mono h.round_cutTaken.2

theorem Homes.keeps_current (h : Homes R t s s') (hs : Current s) : Current s' := by
  induction h with
  | refl => exact hs
  | tail _ h ih =>
    cases h with
    | moves h _ => exact h.keeps_current ih
    | newHome => exact ih

/-- The part as its next round begins, before that round is attributed and sent (R9, R12). -/
def State.rolled (s : State) : State :=
  { s with
    round := s.round + 1
    cutTaken := false
    trees :=
      { q0 := s.trees.q0.roll s.round, q1 := s.trees.q1.roll s.round, q2 := s.trees.q2.roll s.round,
        q3 := s.trees.q3.roll s.round } }

theorem State.rolled_tree (t : TreeId) : s.rolled.tree t = (s.tree t).roll s.round := by
  fin_cases t <;> rfl

theorem Moves.beginRound : Moves R s.rolled s.beginRound :=
  have hrest (s1 : State) : Moves R s1 (allFour.foldl State.beginFrame (allFour.foldl State.attributeRound s1)).takeHeldPacket :=
    .then (.then (.foldl _ (fun _ _ => .attributeRound) _ _) (.foldl _ (fun _ _ => .beginFrame) _ _)) .takeHeldPacket
  hrest s.rolled

theorem beginRound_current (hs : Current s) : Current s.beginRound := by
  refine Moves.beginRound (R := False) |>.keeps_current fun t => ?_
  rw [State.rolled_tree]
  exact (hs t).roll

/-! ## The cut -/

theorem State.placed_tree : (s.placed t).tree t =
    { s.tree t with plans := (s.tree t).plans ++ [s.builtRecord t], lead := (s.staged t).2 } := by
  rw [State.placed, State.tree_of_trees (State.modTreeEntries_trees _ t _), State.modTree_tree]

theorem State.placed_tree_ne (h : t' ≠ t) : (s.placed t).tree t' = s.tree t' := by
  rw [State.placed, State.tree_of_trees (State.modTreeEntries_trees _ t _), State.modTree_tree_ne _ _ h]

theorem State.offerWindow_tree_ne (h : t' ≠ t) (n : Round) (w : PlanWindow) : (s.offerWindow t n w).tree t' = s.tree t' := by
  unfold State.offerWindow
  split
  · exact State.modTree_tree_ne _ _ h
  · split
    · rfl
    · rw [State.tree_of_trees (State.modEntry_trees _ t _ _), State.modEngine, State.modTree_tree_ne _ _ h]

/-- The window of a plan is added to those of its tree, or there is none for a slot that is VACANT. -/
theorem State.offerWindow_tree (n : Round) (w : PlanWindow) :
    ((s.offerWindow t n w).tree t).plans = (s.tree t).plans ∧
      (((s.offerWindow t n w).tree t).engine.windows = (s.tree t).engine.windows ∨
        ∃ x, x.round = n ∧ ((s.offerWindow t n w).tree t).engine.windows = (s.tree t).engine.windows ++ [x]) := by
  unfold State.offerWindow
  split
  · rw [State.modEngine_tree]
    exact ⟨rfl, .inr ⟨_, rfl, rfl⟩⟩
  · split
    · exact ⟨rfl, .inl rfl⟩
    · rw [State.tree_of_trees (State.modEntry_trees _ t _ _), State.modEngine_tree]
      exact ⟨rfl, .inr ⟨_, rfl, rfl⟩⟩

theorem State.placed_round : (s.placed t).round = s.round := rfl

theorem State.buildFull_current (h : (s.tree t).Current s.round false) : ((s.buildFull t).tree t).Current s.round true := by
  obtain ⟨hplans, hwindows⟩ := h
  have hp : RoundsCurrent s.round true (((s.placed t).tree t).plans.map PlanRecord.round) := by
    rw [State.placed_tree, List.map_append]
    exact hplans.append
  have he : ((s.placed t).tree t).engine = (s.tree t).engine := by rw [State.placed_tree]
  cases hw : s.chosenWindow t with
  | none =>
    rw [State.buildFull_of_none hw]
    exact ⟨hp, he ▸ hwindows.mono nofun⟩
  | some w =>
    rw [State.buildFull_of_some hw]
    obtain ⟨hplan, hwin⟩ := State.offerWindow_tree (s := s.placed t) (t := t) (s.round + 2) w
    refine ⟨hplan ▸ hp, ?_⟩
    rw [he] at hwin
    obtain h | ⟨x, hx, h⟩ := hwin
    · rw [h]
      exact hwindows.mono nofun
    · rw [h, List.map_append, List.map_singleton, hx]
      exact hwindows.append

theorem State.buildFull_tree_ne (h : t' ≠ t) : (s.buildFull t).tree t' = s.tree t' := by
  cases hw : s.chosenWindow t with
  | none => rw [State.buildFull_of_none hw, State.placed_tree_ne h]
  | some w => rw [State.buildFull_of_some hw, State.offerWindow_tree_ne h, State.placed_tree_ne h]

theorem Moves.answers (t : TreeId) : Moves R s ((s.scheduleAct t).cadenceAct t) := .then .scheduleAct .cadenceAct

theorem State.buildPlan_current (h : (s.tree t).Current s.round false) : ((s.buildPlan t).tree t).Current s.round true := by
  unfold State.buildPlan
  split
  · exact h.mono nofun
  · exact h.mono nofun
  · obtain ⟨hplans, hwindows⟩ := h
    rw [State.buildSettling, State.modTree_tree]
    refine ⟨?_, hwindows.mono nofun⟩
    rw [List.map_append]
    exact hplans.append
  · have hm := Moves.answers (R := False) (s := s) t
    have := State.buildFull_current (hm.round_cutTaken.1.symm ▸ hm.current h)
    rw [hm.round_cutTaken.1] at this
    rw [State.modTree_tree]
    exact this

theorem State.buildPlan_current_ne {n : Round} {cut : Bool} (ht : t' ≠ t) (h : (s.tree t').Current n cut) :
    ((s.buildPlan t).tree t').Current n cut := by
  unfold State.buildPlan
  split
  · exact h
  · exact h
  · rw [State.buildSettling, State.modTree_tree_ne _ _ ht]
    exact h
  · simp only
    rw [State.modTree_tree_ne _ _ ht, State.buildFull_tree_ne ht]
    exact (Moves.answers (R := False) t).current h

theorem State.buildFull_round_cutTaken (t : TreeId) :
    (s.buildFull t).round = s.round ∧ (s.buildFull t).cutTaken = s.cutTaken := by
  cases hw : s.chosenWindow t with
  | none =>
    rw [State.buildFull_of_none hw]
    exact ⟨rfl, rfl⟩
  | some w =>
    rw [State.buildFull_of_some hw]
    unfold State.offerWindow
    split
    · exact ⟨rfl, rfl⟩
    · split <;> exact ⟨rfl, rfl⟩

theorem State.buildPlan_round_cutTaken (t : TreeId) :
    (s.buildPlan t).round = s.round ∧ (s.cutTaken = true → (s.buildPlan t).cutTaken = true) := by
  unfold State.buildPlan
  split
  · exact ⟨rfl, id⟩
  · exact ⟨rfl, id⟩
  · exact ⟨rfl, id⟩
  · obtain ⟨hround, hcut⟩ := (Moves.answers (R := False) (s := s) t).round_cutTaken
    obtain ⟨hround', hcut'⟩ := State.buildFull_round_cutTaken (s := (s.scheduleAct t).cadenceAct t) t
    exact ⟨hround'.trans hround, fun h => hcut'.trans (hcut h)⟩

/-- The builds of a cut, tree by tree: those still to be built hold no record of the round after next. -/
theorem builds_current {l : List TreeId} (hl : l.Nodup) {n : Round} (hr : s.round = n) (hc : s.cutTaken = true)
    (hopen : ∀ t ∈ l, (s.tree t).Current n false) (hs : ∀ t, (s.tree t).Current n true) :
    Current (l.foldl State.buildPlan s) := by
  subst hr
  induction l generalizing s with
  | nil => exact fun t => hc ▸ hs t
  | cons k l ih =>
    obtain ⟨hk, hl⟩ := List.nodup_cons.1 hl
    obtain ⟨hround, hcut⟩ := State.buildPlan_round_cutTaken (s := s) k
    refine ih hl (hcut hc) (fun t ht => ?_) fun t => ?_
    · rw [hround]
      exact State.buildPlan_current_ne (fun h => hk (h ▸ ht)) (hopen t (List.mem_cons_of_mem _ ht))
    · rw [hround]
      by_cases ht : t = k
      · subst ht
        exact State.buildPlan_current (hopen t List.mem_cons_self)
      · exact State.buildPlan_current_ne ht (hs t)

theorem allFour_nodup : allFour.Nodup := by decide

theorem takeCut_current (hs : Current s) : Current s.takeCut := by
  unfold State.takeCut
  split
  · exact hs
  · rename_i hc
    have hm : Moves False s s.openCut := .openCut False.elim
    have hcut : s.openCut.cutTaken = true := by
      have hp : Moves False { s with cutTaken := true } s.openCut :=
        .then (.then (.pass False.elim) (.foldl _ (fun _ p => .offerHeld p) _ _)) (.foldl _ (fun _ p => .expireHeld p) _ _)
      exact hp.round_cutTaken.2 rfl
    have hopen (t : TreeId) : (s.openCut.tree t).Current s.round false := by
      have := hs t
      rw [Bool.not_eq_true] at hc
      rw [hc] at this
      exact hm.current this
    exact builds_current allFour_nodup hm.round_cutTaken.1 hcut (fun t _ => hopen t) fun t => (hopen t).mono nofun

theorem resetTree_current : (State.reset.tree 0).Current 0 false := ⟨⟨List.nodup_nil, nofun⟩, List.nodup_nil, nofun⟩

theorem current_reset (l : List Instr) : Current (State.resetWith l) := fun t => by
  rw [State.resetWith_tree]
  exact resetTree_current

/-- Settles O58: a cut adds one record of the round after next to each list, and a round's end takes its own away. -/
theorem stepKeepsPlansCurrent : Obligations.StepKeepsPlansCurrent := fun _ _ hp hw h =>
  current_iff.1 (step_keeps_of_cases (R := False) (P := Current) (C := fun _ _ => True) current_reset (fun _ _ => id)
    (fun _ _ h => h.keeps_current) (fun _ => beginRound_current) (fun _ => takeCut_current)
    (fun _ _ light _ => (Homes.callWindow (R := False) light).keeps_current) (current_iff.2 ⟨hp, hw⟩) (fun _ _ _ _ => trivial) h)

end Sys2Proof.Machine
end

section
/-! PROOFS. The booking of every step (O56), and the part right after reset (O51). -/

namespace Sys2Proof.Machine

variable {s s' : State} {t t' : TreeId} {tag tag' : Nat}

/-! ## The rates that are queued for a slot (R20) -/

theorem queuedRates_append (a b : List ChangeEntry) (t : TreeId) (tag : Nat) (r : Round) :
    queuedRates (a ++ b) t tag r = queuedRates a t tag r ++ queuedRates b t tag r := List.filterMap_append

theorem queuedRates_cons_of_ne {q : ChangeEntry} (h : ∀ v, q.change ≠ .contract t tag v) (l : List ChangeEntry) (r : Round) :
    queuedRates (q :: l) t tag r = queuedRates l t tag r := by
  unfold queuedRates
  refine List.filterMap_cons_none ?_
  split
  · rename_i t' tag' v hc
    refine if_neg fun hn => h v ?_
    rw [hc, hn.1, hn.2.1]
  · rfl

theorem queuedRates_cons_of_not {q : ChangeEntry} {r : Round} (h : q.voided = true ∨ laterThan r q.roundTaken = true)
    (l : List ChangeEntry) : queuedRates (q :: l) t tag r = queuedRates l t tag r := by
  unfold queuedRates
  refine List.filterMap_cons_none ?_
  split
  · refine if_neg fun hn => ?_
    obtain h | h := h
    · rw [h] at hn
      exact absurd hn.2.2.1 nofun
    · rw [h] at hn
      exact absurd hn.2.2.2 nofun
  · rfl

theorem queuedRates_cons_of_contract {q : ChangeEntry} {r : Round} {v : Contract} (hc : q.change = .contract t tag v)
    (hv : q.voided = false) (hl : laterThan r q.roundTaken = false) (l : List ChangeEntry) :
    queuedRates (q :: l) t tag r = v.c :: queuedRates l t tag r := by
  unfold queuedRates
  refine List.filterMap_cons_some ?_
  simp only [hc, hv, hl, and_self, if_true]

/-- CONTRACT is ORDINARY: the order of the pass is that of the queue among them (R111, R113). -/
theorem queuedRates_reorder (l : List ChangeEntry) (t : TreeId) (tag : Nat) (r : Round) :
    queuedRates ((l.filter fun q => q.change.urgent) ++ l.filter fun q => !q.change.urgent) t tag r =
      queuedRates l t tag r := by
  rw [queuedRates_append]
  induction l with
  | nil => rfl
  | cons q l ih =>
    cases hu : q.change.urgent with
    | true =>
      have hn : ∀ v, q.change ≠ .contract t tag v := fun v hv => by
        rw [hv] at hu
        cases hu
      simp only [List.filter_cons, hu, Bool.not_true, Bool.false_eq_true, if_true, if_false]
      rw [queuedRates_cons_of_ne hn, queuedRates_cons_of_ne hn, ih]
    | false =>
      have hnone : queuedRates (l.filter fun q => q.change.urgent) t tag r = [] := by
        refine List.filterMap_eq_nil_iff.2 fun x hx => ?_
        have := (List.mem_filter.1 hx).2
        split
        · rename_i hc
          rw [hc] at this
          cases this
        · rfl
      rw [hnone, List.nil_append] at ih
      simp only [List.filter_cons, hu, Bool.not_false, Bool.false_eq_true, if_true, if_false]
      rw [hnone, List.nil_append]
      unfold queuedRates at ih ⊢
      rw [List.filterMap_cons, List.filterMap_cons, ih]

/-- Voiding the changes of one slot leaves the rates queued for every other, and no more of its own (R115). -/
theorem queuedRates_voidQueued (hne : t' ≠ t ∨ tag' ≠ tag) (r : Round) :
    queuedRates (s.voidQueued t tag).queue t' tag' r = queuedRates s.queue t' tag' r := by
  show queuedRates (s.queue.map _) t' tag' r = _
  induction s.queue with
  | nil => rfl
  | cons q l ih =>
    rw [List.map_cons]
    by_cases hc : ∃ v, q.change = .contract t' tag' v
    · obtain ⟨v, hc⟩ := hc
      have hn : q.change.names t tag = false := by
        rw [hc]
        simp only [Change.names, Bool.and_eq_false_iff, decide_eq_false_iff_not]
        exact hne
      rw [hn]
      unfold queuedRates at ih ⊢
      simp only [Bool.false_eq_true, if_false]
      rw [List.filterMap_cons, List.filterMap_cons, ih]
    · rw [not_exists] at hc
      rw [queuedRates_cons_of_ne hc, ← ih]
      refine queuedRates_cons_of_ne (fun v => ?_) _ r
      split <;> exact hc v

theorem le_bookedFor (c : Nat) (rates : List Nat) : c ≤ bookedFor c rates ∧ ∀ n ∈ rates, n ≤ bookedFor c rates := by
  unfold bookedFor
  induction rates generalizing c with
  | nil => exact ⟨le_rfl, nofun⟩
  | cons x rates ih =>
    obtain ⟨hc, hm⟩ := ih (max c x)
    rw [List.foldl_cons]
    refine ⟨(le_max_left _ _).trans hc, fun n hn => ?_⟩
    obtain rfl | hn := List.mem_cons.1 hn
    · exact (le_max_right _ _).trans hc
    · exact hm n hn

theorem bookedFor_mono {c c' : Nat} {l l' : List Nat} (hc : c ≤ bookedFor c' l') (hl : l ⊆ l') :
    bookedFor c l ≤ bookedFor c' l' := bookedFor_le hc fun n hn => (le_bookedFor c' l').2 n (hl hn)

/-! ## Booked as queued (R20) -/

theorem State.entry_of_mem_roster (hw : Store.Wf s.roster) {e : Entry} (h : (slotOf t tag, e) ∈ s.roster) :
    s.entry t tag = some e := Store.read_of_mem hw h

/-- Where entries are kept and the rates queued for each are, bookings stand as queued. -/
theorem BookedAsQueued.of_step (hs : BookedAsQueued s) (hw : Store.Wf s.roster) (hros : RosterStep s s.roster s'.roster)
    (hq : ∀ t tag r, queuedRates s'.queue t tag r = queuedRates s.queue t tag r) : BookedAsQueued s' := by
  intro t tag e' ht he'
  obtain ⟨e, he, h⟩ := hros.of_mem (Store.mem_of_read he')
  rw [h.booked, h.contract, h.occupied, hq]
  exact hs t tag e ht (State.entry_of_mem_roster hw he)

/-- Where one slot is booked afresh and the rates queued for every other are kept, bookings stand as queued. -/
theorem BookedAsQueued.of_rebook {k : Option Contract} (hs : BookedAsQueued s) (ht : tagOk tag = true)
    (hros : s'.roster = Store.modify (slotOf t tag) (Entry.rebooked s'.queue t tag k) s.roster)
    (hq : ∀ t' tag', tagOk tag' = true → t' ≠ t ∨ tag' ≠ tag → ∀ r, queuedRates s'.queue t' tag' r = queuedRates s.queue t' tag' r) :
    BookedAsQueued s' := by
  intro t' tag' e' ht' he'
  rw [State.entry, hros, Store.read_modify] at he'
  by_cases hk : slotOf t' tag' = slotOf t tag
  · obtain ⟨rfl, rfl⟩ := slotOf_inj ht' ht hk
    rw [if_pos rfl] at he'
    obtain ⟨e, he, rfl⟩ := Option.map_eq_some_iff.1 he'
    rfl
  · rw [if_neg hk] at he'
    have hne : t' ≠ t ∨ tag' ≠ tag := by
      by_contra h
      rw [not_or, not_not, not_not] at h
      exact hk (by rw [h.1, h.2])
    rw [hq t' tag' ht' hne]
    exact hs t' tag' e' ht' he'

/-! ## The booking sum (R107) -/

/-- What the entries of a roster add to the booking sum of a tree. -/
def rosterBooking (t : TreeId) (overhead : Nat) (ros : Store Entry) : Nat :=
  (ros.map fun x => if slotTree x.1 = t.val then bookingTerm x.2.booked overhead else 0).sum

theorem State.bookingWith_eq (t : TreeId) (overhead : Nat) : s.bookingWith t overhead = rosterBooking t overhead s.roster := by
  unfold State.bookingWith State.treeEntries rosterBooking
  induction s.roster with
  | nil => rfl
  | cons x ros ih =>
    rw [List.filterMap_cons, List.map_cons, List.sum_cons, ← ih]
    by_cases h : slotTree x.1 = t.val
    · simp only [if_pos h, List.map_cons, List.sum_cons]
    · simp only [if_neg h, Nat.zero_add]

theorem bookingTerm_mono {a b : Nat} (h : a ≤ b) (overhead : Nat) : bookingTerm a overhead ≤ bookingTerm b overhead := by
  unfold bookingTerm
  split <;> split <;> omega

theorem rosterBooking_of_step {ros ros' : Store Entry} (h : RosterStep s ros ros') (t : TreeId) (overhead : Nat) :
    rosterBooking t overhead ros' ≤ rosterBooking t overhead ros := by
  obtain ⟨l, hl, hf⟩ := h
  have heq : ros'.map (fun x => if slotTree x.1 = t.val then bookingTerm x.2.booked overhead else 0) =
      l.map fun x => if slotTree x.1 = t.val then bookingTerm x.2.booked overhead else 0 := by
    clear hl
    induction hf with
    | nil => rfl
    | cons h _ ih => rw [List.map_cons, List.map_cons, ih, h.1, h.2.booked]
  rw [rosterBooking, heq]
  exact (hl.map _).sum_le_sum fun _ _ => Nat.zero_le _

theorem rosterBooking_modify_le {k : Nat} {f : Entry → Entry} {ros : Store Entry}
    (h : ∀ x ∈ ros, x.1 = k → slotTree k = t.val → (f x.2).booked ≤ x.2.booked) (overhead : Nat) :
    rosterBooking t overhead (Store.modify k f ros) ≤ rosterBooking t overhead ros := by
  unfold rosterBooking Store.modify
  rw [List.map_map]
  refine List.sum_le_sum fun x hx => ?_
  simp only [Function.comp]
  by_cases hk : x.1 = k
  · simp only [if_pos hk]
    split
    · rename_i ht
      exact bookingTerm_mono (h x hx hk (hk ▸ ht)) overhead
    · exact le_rfl
  · simp only [if_neg hk]
    exact le_rfl

/-- The booking sum after one entry of the tree is changed. -/
theorem rosterBooking_modify {k : Nat} {f : Entry → Entry} {ros : Store Entry} (hw : Store.Wf ros) {e : Entry}
    (he : Store.read k ros = some e) (ht : slotTree k = t.val) (overhead : Nat) :
    rosterBooking t overhead (Store.modify k f ros) + bookingTerm e.booked overhead =
      rosterBooking t overhead ros + bookingTerm (f e).booked overhead := by
  induction ros with
  | nil => cases he
  | cons x ros ih =>
    obtain ⟨hlt, hw⟩ := List.pairwise_cons.1 hw
    rw [Store.read_cons] at he
    show rosterBooking t overhead ((if x.1 = k then (x.1, f x.2) else x) :: Store.modify k f ros) + _ = _
    simp only [rosterBooking, List.map_cons, List.sum_cons] at ih ⊢
    by_cases hk : k = x.1
    · subst hk
      rw [if_pos rfl] at he
      cases he
      have hrest : Store.modify x.1 f ros = ros := by
        refine (List.map_congr_left fun y hy => if_neg ?_).trans (List.map_id _)
        have := hlt y hy
        omega
      simp only [hrest, if_true, if_pos ht]
      omega
    · rw [if_neg hk] at he
      have := ih hw he
      simp only [if_neg (Ne.symm hk)]
      omega

/-- The bookings of a part are admitted, and as queued (R107, R20). -/
def Booked (s : State) : Prop := BookingWithin s ∧ BookedAsQueued s

/-- Booking one slot afresh for no more than it held leaves every booking sum admitted. -/
theorem BookingWithin.of_rebook {k : Option Contract} (hs : BookingWithin s) (hw : Store.Wf s.roster) (htrees : s'.trees = s.trees)
    (hros : s'.roster = Store.modify (slotOf t tag) (Entry.rebooked s'.queue t tag k) s.roster)
    (hle : ∀ e, s.entry t tag = some e → (e.rebooked s'.queue t tag k).booked ≤ e.booked) : BookingWithin s' := by
  intro t'
  refine le_trans ?_ (hs t')
  simp only [State.bookingSum, State.tree_of_trees htrees, State.bookingWith_eq, hros]
  have := rosterBooking_modify_le (t := t') (k := slotOf t tag) (f := Entry.rebooked s'.queue t tag k) (ros := s.roster)
    (fun x hx hk _ => hle x.2 (State.entry_of_mem hw hx hk)) (s.tree t').settings.overhead
  omega

theorem laterThan_or (a b : Round) : laterThan a b = true ∨ laterThan a b = false := by
  cases laterThan a b <;> simp

/-- A CONTRACT that passes the booking check enters (R108, R109). -/
theorem booked_enterContract {p : Port} {v : Contract} {r : Round} (hs : Booked s) (hw : Store.Wf s.roster)
    (ht : tagOk tag = true) (hb : s.bookingPasses (.contract t tag v) r = true) :
    Booked (s.enterQueue p (.contract t tag v) r) := by
  obtain ⟨hwithin, hqueued⟩ := hs
  have hrates (t' : TreeId) (tag' : Nat) (h : t' ≠ t ∨ tag' ≠ tag) (n : Round) :
      queuedRates (s.queue ++ [⟨p, .contract t tag v, r, false⟩]) t' tag' n = queuedRates s.queue t' tag' n := by
    rw [queuedRates_append, queuedRates_cons_of_ne]
    · exact List.append_nil _
    · rintro w ⟨⟩
      exact h.elim (absurd rfl) (absurd rfl)
  refine ⟨?_, hqueued.of_rebook (k := none) ht rfl fun t' tag' _ h n => hrates t' tag' h n⟩
  simp only [State.bookingPasses] at hb
  cases he : s.entry t tag with
  | none => exact hwithin.of_rebook (k := none) hw rfl rfl fun e h => by rw [he] at h; cases h
  | some e =>
    rw [he, Bool.or_eq_true, decide_eq_true_eq] at hb
    have hold := hqueued t tag e ht he
    obtain hl | hl := laterThan_or e.occupied r
    · refine hwithin.of_rebook (k := none) hw rfl rfl fun e' h => le_of_eq ?_
      rw [he] at h
      cases h
      show bookedFor _ (queuedRates (s.queue ++ [_]) t tag _) = _
      rw [queuedRates_append, queuedRates_cons_of_not (.inr hl), hold]
      exact congrArg _ (List.append_nil _)
    · have hsum := hb.resolve_left (by rw [hl]; nofun)
      intro t'
      have hroster : (s.enterQueue p (.contract t tag v) r).roster =
          Store.modify (slotOf t tag) (Entry.rebooked (s.queue ++ [⟨p, .contract t tag v, r, false⟩]) t tag none) s.roster := rfl
      have hnew : (e.rebooked (s.queue ++ [⟨p, .contract t tag v, r, false⟩]) t tag none).booked =
          bookedFor e.contract.c (queuedRates s.queue t tag e.occupied ++ [v.c]) := by
        show bookedFor _ (queuedRates _ _ _ _) = _
        rw [queuedRates_append, queuedRates_cons_of_contract rfl rfl hl]
        rfl
      have hle (t' : TreeId) : rosterBooking t' (s.tree t').settings.overhead
          (s.enterQueue p (.contract t tag v) r).roster + (s.tree t').bookedCall + (s.tree t').bookedDark ≤ roundQuanta := by
        rw [hroster]
        by_cases htt : t' = t
        · subst htt
          have := rosterBooking_modify (f := Entry.rebooked (s.queue ++ [⟨p, .contract t' tag v, r, false⟩]) t' tag none) hw he
            (slot_of_slotOf ht).1 (s.tree t').settings.overhead
          rw [hnew] at this
          simp only [State.bookingIfContract, State.bookingSum, State.bookingWith_eq] at hsum
          omega
        · have := rosterBooking_modify_le (t := t') (k := slotOf t tag) (ros := s.roster)
            (f := Entry.rebooked (s.queue ++ [⟨p, .contract t tag v, r, false⟩]) t tag none)
            (fun x _ _ hk => absurd (Fin.ext (hk.symm.trans (slot_of_slotOf ht).1)) htt) (s.tree t').settings.overhead
          have hold := hwithin t'
          rw [State.bookingSum, State.bookingWith_eq] at hold
          omega
      have := hle t'
      rwa [← State.bookingWith_eq] at this

/-- Bookings stand where the roster, the rates queued and what each tree books stay. -/
theorem Booked.of_same (hs : Booked s) (hw : Store.Wf s.roster) (hros : RosterStep s s.roster s'.roster)
    (hq : ∀ t tag r, queuedRates s'.queue t tag r = queuedRates s.queue t tag r)
    (ht : ∀ t, (s'.tree t).settings.overhead = (s.tree t).settings.overhead ∧
      (s'.tree t).bookedCall = (s.tree t).bookedCall ∧ (s'.tree t).bookedDark = (s.tree t).bookedDark) : Booked s' := by
  refine ⟨fun t => le_trans ?_ (hs.1 t), hs.2.of_step hw hros hq⟩
  obtain ⟨ho, hc, hd⟩ := ht t
  rw [State.bookingSum, State.bookingSum, State.bookingWith_eq, State.bookingWith_eq, ho, hc, hd]
  have := rosterBooking_of_step hros t (s.tree t).settings.overhead
  omega

theorem RosterStep.same (s : State) (ros : Store Entry) : RosterStep s ros ros := by
  simpa using RosterStep.map (s := s) ros id fun x _ => ⟨rfl, .refl _ _⟩

theorem Booked.of_queue (hs : Booked s) (hw : Store.Wf s.roster) (hros : s'.roster = s.roster) (htrees : s'.trees = s.trees)
    (hq : ∀ t tag r, queuedRates s'.queue t tag r = queuedRates s.queue t tag r) : Booked s' :=
  hs.of_same hw (hros ▸ .same s s.roster) hq fun t => by
    rw [State.tree_of_trees htrees]
    exact ⟨rfl, rfl, rfl⟩

theorem queuedRates_append_of_ne {q : ChangeEntry} (h : ∀ t tag v, q.change ≠ .contract t tag v) (l : List ChangeEntry)
    (t : TreeId) (tag : Nat) (r : Round) : queuedRates (l ++ [q]) t tag r = queuedRates l t tag r := by
  rw [queuedRates_append, queuedRates_cons_of_ne (h t tag)]
  exact List.append_nil _

/-- A tree that books otherwise, its entries as they were. -/
theorem BookingWithin.of_tree {x : Tree} (hs : BookingWithin s)
    (hx : s.bookingWith t x.settings.overhead + x.bookedCall + x.bookedDark ≤ roundQuanta) : BookingWithin (s.setTree t x) := by
  intro t'
  rw [State.bookingSum]
  show s.bookingWith t' _ + _ + _ ≤ _
  by_cases ht : t' = t
  · subst ht
    rwa [State.setTree_tree]
  · rw [State.setTree_tree_ne _ _ ht]
    exact hs t'

/-- A change that passes its booking check enters (R112, R13, R20). -/
theorem booked_enterQueue {p : Port} {c : Change} {r : Round} (hs : Booked s) (hw : Store.Wf s.roster) (hc : c.inRange = true)
    (hb : s.bookingPasses c r = true) : Booked (s.enterQueue p c r) := by
  have hrates (hc : ∀ t tag v, c ≠ .contract t tag v) (t : TreeId) (tag : Nat) (n : Round) :
      queuedRates (s.queue ++ [⟨p, c, r, false⟩]) t tag n = queuedRates s.queue t tag n := queuedRates_append_of_ne hc _ t tag n
  have hplain (hc : ∀ t tag v, c ≠ .contract t tag v) : Booked { s with queue := s.queue ++ [⟨p, c, r, false⟩] } :=
    hs.of_queue hw rfl rfl (hrates hc)
  cases c with
  | contract t tag v =>
    rw [Change.inRange, Bool.and_eq_true] at hc
    exact booked_enterContract hs hw hc.1 hb
  | treeSetting t name v =>
    have hp := hplain nofun
    cases name with
    | wCall =>
      simp only [State.bookingPasses, decide_eq_true_eq] at hb
      exact ⟨hp.1.of_tree (t := t) hb, hp.2⟩
    | wDark =>
      simp only [State.bookingPasses, decide_eq_true_eq] at hb
      exact ⟨hp.1.of_tree (t := t) hb, hp.2⟩
    | _ => exact hp
  | _ => exact hplain nofun

/-- A change other than a CONTRACT leaves the queue. -/
theorem Booked.pop {q : ChangeEntry} {rest : List ChangeEntry} (hs : Booked s) (hw : Store.Wf s.roster) (hq : s.queue = q :: rest)
    (hc : ∀ t tag v, q.change ≠ .contract t tag v) (hros : s'.roster = s.roster) (htrees : s'.trees = s.trees)
    (hq' : s'.queue = rest) : Booked s' :=
  hs.of_queue hw hros htrees fun t tag r => by rw [hq', hq, queuedRates_cons_of_ne (hc t tag)]

/-- A CONTRACT is handed over: its rate leaves the queue, and may become the entry's c (R110, R20). -/
theorem booked_popContract {q : ChangeEntry} {rest : List ChangeEntry} {v : Contract} (hs : Booked s) (hw : Store.Wf s.roster)
    (hq : s.queue = q :: rest) (hc : q.change = .contract t tag v) (ht : tagOk tag = true) :
    Booked ({ s with queue := rest }.applyContract q t tag v).state := by
  obtain ⟨hwithin, hqueued⟩ := hs
  obtain ⟨k, hk, hros⟩ := State.applyContract_roster (s := { s with queue := rest }) hw q t tag v
  rw [State.applyContract_eq]
  refine ⟨hwithin.of_rebook (k := k) hw rfl hros fun e he => ?_, hqueued.of_rebook (k := k) ht hros fun t' tag' _ hne r => ?_⟩
  · rw [hqueued t tag e ht he, hq]
    show bookedFor (k.getD e.contract).c (queuedRates rest t tag e.occupied) ≤ _
    have hsub : queuedRates rest t tag e.occupied ⊆ queuedRates (q :: rest) t tag e.occupied := by
      rw [← List.singleton_append, queuedRates_append]
      exact List.subset_append_right _ _
    refine bookedFor_mono ?_ hsub
    cases k with
    | none => exact (le_bookedFor _ _).1
    | some w =>
      obtain ⟨rfl, e', he'⟩ := hk w rfl
      obtain ⟨hentry, hv, hl⟩ := State.targetOf_spec he'
      obtain rfl : e = e' := Option.some.inj (he.symm.trans hentry)
      refine (le_bookedFor _ _).2 _ ?_
      rw [queuedRates_cons_of_contract hc hv hl]
      exact List.mem_cons_self
  · rw [hq, queuedRates_cons_of_ne]
    rintro w h
    rw [hc] at h
    cases h
    exact hne.elim (absurd rfl) (absurd rfl)

/-- The changes of a slot become void: no rate is queued for it any more (R31, R115). -/
theorem booked_voidSlot (hs : Booked s) (hw : Store.Wf s.roster) (ht : tagOk tag = true) :
    Booked ((s.voidQueued t tag).rebook t tag) := by
  obtain ⟨hwithin, hqueued⟩ := hs
  refine ⟨hwithin.of_rebook (k := none) hw rfl rfl fun e he => ?_,
    hqueued.of_rebook (k := none) ht rfl fun t' tag' _ hne r => queuedRates_voidQueued hne r⟩
  rw [hqueued t tag e ht he]
  refine bookedFor_mono (le_bookedFor _ _).1 fun n hn => ?_
  obtain ⟨q', hq', v, hc, hv, hl, rfl⟩ := mem_queuedRates hn
  obtain ⟨q, hq, rfl⟩ := List.mem_map.1 hq'
  by_cases hn : q.change.names t tag = true
  · rw [if_pos hn] at hv
    cases hv
  · rw [if_neg hn] at hc
    rw [hc] at hn
    exact absurd (by simp [Change.names]) hn

theorem Move.booked (h : Move True s s') (hr : RosterSound s) (hrange : RegistersInRange s) (hs : Booked s) : Booked s' := by
  have hw := hr.1.1
  cases h with
  | tree t x h => exact ⟨hs.1.of_tree (h.booking (hs.1 t)), hs.2⟩
  | roster ros h => exact hs.of_same hw (h hw) (fun _ _ _ => rfl) fun _ => ⟨rfl, rfl, rfl⟩
  | hold p q c _ _ =>
    rw [State.bookPlace_eq]
    exact hs
  | enter p c hc _ hb =>
    rw [State.bookPlace_eq]
    exact booked_enterQueue (s := { s with journal := (s.bookPlace c).journal }) hs hw (hc.range hrange) hb
  | dropHeld p h _ =>
    rw [State.dropHeld_eq]
    exact hs
  | enterHeld p h hp _ hb => exact booked_enterQueue (s := s.freeSlot p) hs hw (hrange.2.2.2.2.2 p h hp) hb
  | reorder => exact hs.of_queue hw rfl rfl (queuedRates_reorder _)
  | pop q rest hq _ hc => exact hs.pop hw hq hc rfl rfl rfl
  | popSetting q rest t name v hq hc =>
    have hpop : Booked { s with queue := rest } := hs.pop hw hq (by rw [hc]; nofun) rfl rfl rfl
    have hn : name ≠ .overhead := by
      have := hrange.2.2.2.2.1 q (by simp [hq])
      rw [hc, Change.inRange, Bool.and_eq_true] at this
      rintro rfl
      exact absurd this.1 nofun
    refine ⟨hpop.1.of_tree ?_, hpop.2⟩
    rw [Settings.put_overhead hn]
    exact hpop.1 t
  | popContract q rest t tag v hq hc =>
    have := hrange.2.2.2.2.1 q (by simp [hq])
    rw [hc, Change.inRange, Bool.and_eq_true] at this
    exact booked_popContract hs hw hq hc this.1
  | popWithdraw q rest hq hwd => exact hs.pop hw hq (fun t tag v h => by rw [h] at hwd; cases hwd) rfl rfl rfl
  | popFinal q rest r hq hwd _ => exact hs.pop hw hq (fun t tag v h => by rw [h] at hwd; cases hwd) rfl rfl rfl
  | voidSlot t tag h => exact booked_voidSlot hs hw (h trivial)
  | _ => exact hs

/-- What a booking rests on, besides the bookings themselves. -/
def BookingSound (s : State) : Prop := RosterSound s ∧ RegistersInRange s ∧ Booked s

theorem Moves.bookingSound (h : Moves True s s') (hs : BookingSound s) : BookingSound s' :=
  Moves.keep (P := BookingSound)
    (fun _ _ h hs => ⟨h.rosterSound hs.1, h.registersInRange hs.1 hs.2.1, h.booked hs.1 hs.2.1 hs.2.2⟩) h hs

theorem Act.booked (h : Act True False s s') (hr : RosterSound s) (hrange : RegistersInRange s) (hs : Booked s) : Booked s' := by
  cases h with
  | move h => exact h.booked hr hrange hs
  | newHome t tag serial k hn => exact hn.elim
  | plan t x r hx _ => exact ⟨hs.1.of_tree (x := { x with plans := x.plans ++ [r] }) (hx.booking (hs.1 t)), hs.2⟩
  | window t w _ => exact ⟨hs.1.of_tree (hs.1 t), hs.2⟩
  | roll =>
    refine ⟨fun t => ?_, hs.2⟩
    have := hs.1 t
    fin_cases t <;> exact this

theorem Acts.bookingSound (h : Acts True False s s') (hs : BookingSound s) : BookingSound s' :=
  Acts.keep (P := BookingSound)
    (fun _ _ h hs => ⟨h.rosterSound hs.1, h.registersInRange hs.1 hs.2.1, h.booked hs.1 hs.2.1 hs.2.2⟩) h hs

/-! ## A new home (R48, R20) -/

theorem rosterBooking_write {k : Nat} {e : Entry} {ros : Store Entry} (h : Store.read k ros = none) (t : TreeId)
    (overhead : Nat) : rosterBooking t overhead (Store.write k e ros) =
      (if slotTree k = t.val then bookingTerm e.booked overhead else 0) + rosterBooking t overhead ros := by
  induction ros with
  | nil => rfl
  | cons x ros ih =>
    rw [Store.read_cons] at h
    split at h
    · cases h
    · rename_i hk
      unfold Store.write
      split
      · rfl
      · simp only [rosterBooking, List.map_cons, List.sum_cons] at ih ⊢
        rw [ih h]
        omega

/-- A home that takes a slot for which no CONTRACT waits, its commitment within the booking, books its c (R48, R20). -/
theorem Booked.newHome {serial : Serial} {k : Contract} (hs : Booked s) (hv : s.lowestVacant t = some tag)
    (hclaim : NoFreshClaim s t)
    (hb : k.c = 0 ∨ s.bookingSum t + (k.c + (s.tree t).settings.overhead) + (s.tree t).bookedCall + (s.tree t).bookedDark ≤
      roundQuanta) : Booked (s.setEntry t tag (newHeard serial s.round k)) := by
  obtain ⟨ht, hvacant⟩ := State.lowestVacant_spec hv
  obtain ⟨hwithin, hqueued⟩ := hs
  refine ⟨fun t' => ?_, fun t' tag' e ht' he => ?_⟩
  · have hold := hwithin t'
    show (s.setEntry t tag (newHeard serial s.round k)).bookingWith t' _ + _ + _ ≤ _
    rw [State.bookingSum, State.bookingWith_eq] at hold
    have hsum := rosterBooking_write (e := newHeard serial s.round k) hvacant t' (s.tree t').settings.overhead
    rw [State.bookingWith_eq]
    show rosterBooking t' (s.tree t').settings.overhead (Store.write _ _ _) + (s.tree t').bookedCall + (s.tree t').bookedDark ≤ _
    rw [hsum, (slot_of_slotOf ht).1]
    by_cases htt : t = t'
    · subst htt
      rw [if_pos rfl]
      rw [State.bookingSum, State.bookingWith_eq] at hb
      show bookingTerm k.c _ + _ + _ + _ ≤ _
      unfold bookingTerm
      split
      · omega
      · omega
    · rw [if_neg fun h => htt (Fin.ext h)]
      omega
  · by_cases hk : slotOf t' tag' = slotOf t tag
    · obtain ⟨rfl, rfl⟩ := slotOf_inj ht' ht hk
      rw [State.setEntry_entry] at he
      cases he
      have hnone : queuedRates s.queue t' tag' s.round = [] := by
        refine List.eq_nil_iff_forall_not_mem.2 fun n hn => ?_
        obtain ⟨q, hq, v, hc, -, hl, -⟩ := mem_queuedRates hn
        rw [hclaim q hq tag' v hc hvacant] at hl
        cases hl
      show k.c = bookedFor k.c (queuedRates s.queue t' tag' s.round)
      rw [hnone]
      rfl
    · rw [State.setEntry_entry_ne _ _ hk] at he
      exact hqueued t' tag' e ht' he

theorem SlotsHeld.noFreshClaim (h : SlotsHeld t s s') (hs : NoFreshClaim s t) : NoFreshClaim s' t := by
  obtain ⟨hq, hr, hv⟩ := h
  intro q hm tag v hc he
  rw [hr]
  exact hs q (hq ▸ hm) tag v hc (hv tag he)

theorem Homes.bookingSound (h : Homes True t s s') (hs : BookingSound s) (hclaim : NoFreshClaim s t) : BookingSound s' := by
  have : BookingSound s' ∧ NoFreshClaim s' t := by
    induction h with
    | refl => exact ⟨hs, hclaim⟩
    | tail _ h ih =>
      obtain ⟨⟨hr, hrange, hb⟩, hc⟩ := ih
      cases h with
      | moves h hslots => exact ⟨h.bookingSound ⟨hr, hrange, hb⟩, hslots.noFreshClaim hc⟩
      | newHome tag serial k hv hh hk hbook =>
        have hact : Act True True _ _ := .newHome _ t tag serial k trivial hv hh hk hbook
        exact ⟨⟨hact.rosterSound hr, hact.registersInRange hr hrange, hb.newHome hv hc hbook⟩,
          (SlotsHeld.setEntry t tag _).noFreshClaim hc⟩
  exact this.1

theorem reset_widths : 0 + (State.reset.tree 0).bookedCall + (State.reset.tree 0).bookedDark ≤ roundQuanta := by decide

theorem reset_booking (l : List Instr) : Booked (State.resetWith l) := by
  refine ⟨fun t => ?_, fun t tag e _ he => ?_⟩
  · have htree := State.resetWith_tree l t
    rw [State.bookingSum, State.bookingWith_eq, htree]
    exact reset_widths
  · cases he

/-- Settles O56: a change enters, and a home comes, within the booking of its instant, and what takes effect books no more than
what waited. -/
theorem stepKeepsBookingWithin : Obligations.StepKeepsBookingWithin := fun _ _ hr hrange hb hq hclaim h =>
  And.right (And.right (step_keeps_of_cases (R := True) (P := BookingSound) (C := fun s t => NoFreshClaim s t)
    (fun l => ⟨rosterSound_reset l, registersInRange_reset l, reset_booking l⟩) (fun _ _ => id)
    (fun _ _ h => h.bookingSound) (fun _ => Acts.beginRound.bookingSound)
    (fun _ hs => (Acts.takeCut fun _ => ⟨hs.1, hs.2.1⟩).bookingSound hs)
    (fun _ _ light hc hs => (Homes.callWindow light).bookingSound hs hc) ⟨hr, hrange, hb, hq⟩ hclaim h))

/-- Settles O51: the values of power-on meet every invariant. -/
theorem soundAtReset : Obligations.SoundAtReset := by
  have hports := portsSound_iff.1 (portsSound_reset [])
  have hcurrent := current_iff.1 (current_reset [])
  have horders := ordersSound_reset []
  have hbooked := reset_booking []
  exact ⟨queueWithin_reset [], journalWithin_reset [], hports.1, hports.2.1, hports.2.2, rosterSound_reset [],
    delaysWithin_reset [], tagsInRange_reset [], hcurrent.1, hcurrent.2, horders.1, horders.2.1, horders.2.2,
    buffersWithin_reset [], metersInRange_reset [], registersInRange_reset [], hbooked.1, hbooked.2⟩

end Sys2Proof.Machine
end

section
/-! PROOFS. The step and reset (O1, O2), request messages (O4, O5, O6) and the slots of a port (O7). -/

namespace Sys2Proof.Machine

/-! ## The step and reset -/

/-- Settles O1, by the definition of the step. -/
theorem stepRunsFrontCommand : Obligations.StepRunsFrontCommand := by
  refine ⟨fun s c rest h => ?_, fun s h => ?_⟩
  · simp only [step, h]
  · simp only [step, h]

/-- Settles O2: reset gives each block the values the manual gives. -/
theorem powerOnResetValues : Obligations.PowerOnResetValues := by
  intro s
  refine ⟨_, rfl, rfl, rfl, rfl, rfl, rfl, rfl, rfl, rfl, rfl, rfl, rfl, rfl, fun k => ?_, rfl, rfl, fun k => ?_, fun p => ?_,
    rfl, rfl, rfl, ?_, ?_, ?_⟩
  · fin_cases k <;> rfl
  · have htree : State.tree { State.reset with pending := s.pending } k = State.reset.tree 0 :=
      State.resetWith_tree s.pending k
    rw [htree]
    exact ⟨rfl, rfl, rfl, rfl, rfl, rfl, rfl, rfl, rfl, rfl, rfl, rfl, rfl, rfl, rfl, rfl, rfl, rfl, rfl, rfl, rfl, rfl, rfl,
      rfl, rfl, rfl⟩
  · cases p <;> exact ⟨rfl, rfl, rfl, rfl, rfl, rfl, rfl⟩
  · show ∀ kind ∈ _, routeOf State.reset.routes kind = _
    decide
  · show ∀ kind ∈ _, routeOf State.reset.routes kind = _
    decide
  · show ∀ kind ∈ _, routeOf State.reset.routes kind = _
    decide

/-! ## Numbers as bytes (section 12) -/

@[simp] theorem length_beBytes (w v : Nat) : (beBytes w v).length = w := by
  induction w with
  | zero => rfl
  | succ w ih => simp [beBytes, ih]

theorem foldl_beNat (l : List Byte) (acc : Nat) :
    l.foldl (fun acc b => acc * 256 + b.toNat) acc = acc * 256 ^ l.length + beNat l := by
  unfold beNat
  induction l generalizing acc with
  | nil => simp
  | cons b l ih =>
    rw [List.foldl_cons, List.foldl_cons, ih, ih (0 * 256 + b.toNat), List.length_cons]
    ring

theorem beNat_cons (b : Byte) (l : List Byte) : beNat (b :: l) = b.toNat * 256 ^ l.length + beNat l := by
  show List.foldl _ (0 * 256 + b.toNat) l = _
  rw [foldl_beNat, Nat.zero_mul, Nat.zero_add]

/-- What the bytes of a number hold of it. -/
theorem beNat_beBytes (w v : Nat) : beNat (beBytes w v) = v % 256 ^ w := by
  induction w with
  | zero => simp [beBytes, beNat, Nat.mod_one]
  | succ w ih =>
    rw [beBytes, beNat_cons, ih, length_beBytes, BitVec.toNat_ofNat, show 256 ^ (w + 1) = 256 ^ w * 256 from rfl,
      Nat.mod_mul, Nat.mul_comm, Nat.add_comm]

theorem beNat_beBytes_of_lt {w v : Nat} (h : v < 256 ^ w) : beNat (beBytes w v) = v := by
  rw [beNat_beBytes, Nat.mod_eq_of_lt h]

/-! ## The arguments of a request (section 12.1) -/

theorem splitFields_beBytes (fields : List (Nat × Nat)) (h : ∀ f ∈ fields, f.2 < 256 ^ f.1) :
    splitFields (fields.map Prod.fst) (fields.flatMap fun f => beBytes f.1 f.2) = some (fields.map Prod.snd) := by
  induction fields with
  | nil => rfl
  | cons f fields ih =>
    obtain ⟨hf, hrest⟩ := List.forall_mem_cons.1 h
    simp only [List.map_cons, List.flatMap_cons, splitFields]
    rw [if_neg (by simp), List.drop_left' (length_beBytes _ _), List.take_left' (length_beBytes _ _), ih hrest,
      beNat_beBytes_of_lt hf]
    rfl

theorem length_of_splitFields {widths : List Nat} {bytes : List Byte} {values : List Nat}
    (h : splitFields widths bytes = some values) : bytes.length = widths.sum := by
  induction widths generalizing bytes values with
  | nil =>
    cases bytes with
    | nil => rfl
    | cons b bytes => cases h
  | cons w widths ih =>
    rw [splitFields] at h
    split at h
    · cases h
    · obtain ⟨rest, hrest, -⟩ := Option.map_eq_some_iff.1 h
      have := ih hrest
      rw [List.length_drop] at this
      rw [List.sum_cons]
      omega

theorem argWidths_code (r : Request) : argWidths r.code = some (r.fields.map Prod.fst) := by
  cases r <;> rfl

theorem buildRequest_code (r : Request) : buildRequest r.code (r.fields.map Prod.snd) = some r := by
  cases r with
  | admitHome serial tree c p w =>
    show some (Request.admitHome (BitVec.ofNat 64 serial.toNat) tree c p w) = _
    rw [BitVec.ofNat_toNat, BitVec.setWidth_eq]
  | strike serial =>
    show some (Request.strike (BitVec.ofNat 64 serial.toNat)) = _
    rw [BitVec.ofNat_toNat, BitVec.setWidth_eq]
  | _ => rfl

theorem Request.length_argBytes (r : Request) : r.argBytes.length ≤ 14 := by
  unfold Request.argBytes
  rw [List.length_flatMap]
  cases r <;> simp [Request.fields]

theorem Request.code_lt (r : Request) : r.code < 256 ∧ r.code ≠ 68 := by
  cases r <;> simp [Request.code]

theorem decodeArgs_argBytes {r : Request} (h : r.wf = true) : decodeArgs r.code r.argBytes = .request r := by
  have hf : ∀ f ∈ r.fields, f.2 < 256 ^ f.1 := by simpa [Request.wf] using h
  simp only [decodeArgs, argWidths_code, Request.argBytes, splitFields_beBytes r.fields hf, buildRequest_code]

/-! ## Messages (R182) -/

theorem beBytes_two (n : Nat) : ∃ hi lo, beBytes 2 n = [hi, lo] ∧ (n < 65536 → beNat [hi, lo] = n) :=
  ⟨_, _, rfl, fun h => beNat_beBytes_of_lt (w := 2) h⟩

/-- What a whole message asks for that has a name, a sequence byte and is no PORT RESET. -/
theorem decodeMessage_whole {name : Byte} (hn : name.toNat ≠ 68) (seq : Byte) {args : List Byte} (h : args.length < 65534) :
    decodeMessage (beBytes 2 (args.length + 2) ++ [name, seq] ++ args) =
      some { seq := seq, ask := if 1022 < args.length + 2 then .malformed .longLength else decodeArgs name.toNat args } := by
  obtain ⟨hi, lo, hb, hlen⟩ := beBytes_two (args.length + 2)
  have hlen := hlen (by omega)
  rw [hb]
  show decodeMessage (hi :: lo :: name :: seq :: args) = _
  simp only [decodeMessage, hlen, List.length_cons, Nat.lt_irrefl, if_false]
  rw [List.take_of_length_le (by simp)]
  show (if name.toNat = 68 then some _ else if 1022 < args.length + 2 then some _ else some _) = _
  rw [if_neg hn]
  split <;> rfl

/-- Settles O4: each field's bytes hold its number, and they are cut where they were joined. -/
theorem messageRoundTrip : Obligations.MessageRoundTrip := by
  intro q r h
  have hcode : (BitVec.ofNat 8 r.code).toNat = r.code := by
    rw [BitVec.toNat_ofNat]
    exact Nat.mod_eq_of_lt (Request.code_lt r).1
  have hlen := Request.length_argBytes r
  rw [encodeRequest, decodeMessage_whole (hcode.symm ▸ (Request.code_lt r).2) q (by omega), hcode, decodeArgs_argBytes h,
    if_neg (by omega)]

theorem decodeMessage_portReset (q : Byte) : decodeMessage (encodePortReset q) = some { seq := q, ask := .portReset } := by
  simp [decodeMessage, encodePortReset, beBytes, beNat, portResetCode]

theorem exec_requestArrival {message : List Byte} {a : Arrived} (h : decodeMessage message = some a) (p : Port) (s : State) :
    exec (.requestArrival p message) s = .next (s.arrive p a) := by
  show execRequestArrival p message s = _
  simp only [execRequestArrival, h]

/-- Settles O5: the bytes are read back as the request, whose row is its arrival. -/
theorem arrivingMessageRunsItsRow : Obligations.ArrivingMessageRunsItsRow := by
  refine ⟨fun s c p q r hc hr => ⟨_, exec_requestArrival (messageRoundTrip q r hr) p s, exec_of_request hc s⟩, fun s p q => ?_⟩
  exact ⟨_, exec_requestArrival (decodeMessage_portReset q) p s, rfl⟩

/-! ## Messages that are not carried out (R174, R182) -/

theorem decodeArgs_malformed {code : Nat} {args : List Byte}
    (h : argWidths code = none ∨ ∃ widths, argWidths code = some widths ∧ widths.sum ≠ args.length) :
    ∃ why, decodeArgs code args = .malformed why := by
  obtain h | ⟨widths, h, hne⟩ := h
  · exact ⟨.unknownName, by simp only [decodeArgs, h]⟩
  · have hs : splitFields widths args = none := by
      cases hs : splitFields widths args with
      | none => rfl
      | some values => exact absurd (length_of_splitFields hs).symm hne
    exact ⟨.wrongSize, by simp only [decodeArgs, h, hs]⟩

variable {s : State} {p : Port}

theorem State.arrive_malformed (h : PortFree s p) (q : Byte) (why : Malformed) :
    s.arrive p { seq := q, ask := .malformed why } = s.reply p q .badArgument .nothing := State.arrive_of_portFree h _

/-- The names of each role (R174). -/
theorem permitted_eq_false {r : Request} (h : (16 ≤ r.code ∧ r.code ≤ 29 ∧ p ≠ .line) ∨
    (32 ≤ r.code ∧ r.code ≤ 40 ∧ p ≠ .accounting) ∨ (48 ≤ r.code ∧ r.code ≤ 54 ∧ p ≠ .supervisor)) :
    permitted p r = false := by
  cases r <;> simp_all [Request.code, permitted]

/-- A request row at a port with empty slots is its rule, where the port's role has it (R172, R174). -/
theorem exec_of_portFree {c : Instr} {q : Byte} {r : Request} (hc : c.request? = some (p, q, r)) (h : PortFree s p)
    (hr : permitted p r = true) : exec c s = .next (s.carryOut p q r) := by
  rw [exec_of_request hc, State.arrive_of_portFree h, State.take_of_permitted hr]

/-- Settles O6: the checks of form, name and role come before any of the rule (R174, R182). -/
theorem requestsNotCarriedOut : Obligations.RequestsNotCarriedOut := by
  refine ⟨fun s p hfree => ⟨fun name q args hname hlen hbad => ?_, ?_, fun name hname => ?_⟩, fun s c p q r hc hfree hr => ?_⟩
  · rw [exec_requestArrival (decodeMessage_whole hname q hlen)]
    split
    · rw [State.arrive_malformed hfree]
    · rename_i hshort
      obtain ⟨why, hwhy⟩ := decodeArgs_malformed (hbad.resolve_left hshort)
      rw [hwhy, State.arrive_malformed hfree]
  · have hdecode : decodeMessage [0, 0] = some { seq := 0, ask := .malformed .shortLength } := by decide
    rw [exec_requestArrival hdecode, State.arrive_malformed hfree]
  · have hdecode : decodeMessage [0, 1, name] = some { seq := 0, ask := .malformed .shortLength } := by
      simp [decodeMessage, beNat, portResetCode, hname]
    rw [exec_requestArrival hdecode, State.arrive_malformed hfree]
  · rw [exec_of_request hc, State.arrive_of_portFree hfree, State.take]
    simp only [permitted_eq_false hr, Bool.false_eq_true, if_false]
    rfl

/-! ## The slots (R172, R176) -/

theorem State.takeWaiting_of_held {h : Held} (hp : (s.port p).inProgress = some h) : s.takeWaiting p = s := by
  simp only [State.takeWaiting, hp]

/-- A request behind a held one waits, or finds the waiting slot taken (R172). -/
theorem State.arrive_of_held {h : Held} (hp : (s.port p).inProgress = some h) (q : Byte) (r : Request) :
    s.arrive p { seq := q, ask := .request r } = s.intoSlots p { seq := q, ask := .request r } := by
  show (s.takeWaiting p).intoSlots p _ = _
  rw [State.takeWaiting_of_held hp]

theorem State.intoSlots_of_waiting_none {h : Held} (hp : (s.port p).inProgress = some h) (hw : (s.port p).waiting = none)
    (a : Arrived) : s.intoSlots p a = s.modPort p fun x => { x with waiting := some a } := by
  simp only [State.intoSlots, hp, hw]

theorem State.intoSlots_of_waiting_some {h : Held} {b : Arrived} (hp : (s.port p).inProgress = some h)
    (hw : (s.port p).waiting = some b) (a : Arrived) : s.intoSlots p a = s.refuse p a.seq .portBusy := by
  simp only [State.intoSlots, hp, hw]

/-- What a PORT RESET frees of the journal (R122). -/
theorem State.dropHeld_booked (h : Held) : s.dropHeld h = { s with journal := { s.journal with
    booked := s.journal.booked - (match h.change with | .withdraw _ _ => 1 | _ => 0) } } := by
  unfold State.dropHeld
  cases h.change <;> rfl

/-- Settles O7: the slots by what they hold (R172), and what a PORT RESET discards (R176). -/
theorem portSlotsAndReset : Obligations.PortSlotsAndReset := by
  refine ⟨fun s c p q r hc => ⟨fun h hp hw => ?_, fun h a hp hw => ?_, fun hp hw => ?_, fun h => ?_⟩, fun s p q => ?_⟩
  · rw [exec_of_request hc, State.arrive_of_held hp, State.intoSlots_of_waiting_none hp hw]
    rfl
  · rw [exec_of_request hc, State.arrive_of_held hp, State.intoSlots_of_waiting_some hp hw]
    rfl
  · refine ⟨_, rfl, ?_⟩
    have hfree : PortFree (s.setPort p { s.port p with waiting := none }) p := by
      rw [PortFree, State.setPort_port]
      exact ⟨hp, rfl⟩
    rw [exec_of_request hc, State.arrive_of_portFree hfree]
    have htake : s.takeWaiting p = (s.modPort p fun x => { x with waiting := none }).take p { seq := q, ask := .request r } := by
      simp only [State.takeWaiting, hp, hw]
    exact congrArg _ htake.symm
  · show Host.Outcome.next (s.takeWaiting p) = _
    obtain h | h := h
    · obtain ⟨x, hx⟩ := Option.ne_none_iff_exists'.1 h
      rw [State.takeWaiting_of_held hx]
    · cases hp : (s.port p).inProgress with
      | none => rw [State.takeWaiting_of_portFree ⟨hp, h⟩]
      | some x => rw [State.takeWaiting_of_held hp]
  · show Host.Outcome.next (s.takePortReset p q) = _
    unfold State.takePortReset
    rw [State.reply, State.modPort_modPort]
    cases hp : (s.port p).inProgress with
    | none => cases hw : (s.port p).waiting <;> simp [State.modPort]
    | some h => cases hw : (s.port p).waiting <;> simp [State.modPort, State.dropHeld_booked, State.port] <;> rfl

end Sys2Proof.Machine
end

section
/-! PROOFS. Port and notice requests (O8), and how a notice coalesces (O9). -/

namespace Sys2Proof.Machine

variable {s : State} {p : Port}

/-! ## Arguments (R183) -/

theorem portOf_of_mem {n : Nat} {p : Port} (h : (n, p) ∈ [(1, Port.line), (2, .accounting), (3, .supervisor)]) :
    portOf n = some p := by
  simp only [List.mem_cons, Prod.mk.injEq, List.not_mem_nil, or_false] at h
  obtain ⟨rfl, rfl⟩ | ⟨rfl, rfl⟩ | ⟨rfl, rfl⟩ := h <;> rfl

theorem portOf_eq_none {n : Nat} (h : n = 0 ∨ 3 < n) : portOf n = none := by
  unfold portOf
  split <;> first | omega | rfl

theorem holdLimitOf_of_mem {n : Nat} {l : Option Nat}
    (h : (n, l) ∈ [(0, none), (5, some 5), (50, some 50), (500, some 500), (5000, some 5000)]) : holdLimitOf n = some l := by
  simp only [List.mem_cons, Prod.mk.injEq, List.not_mem_nil, or_false] at h
  obtain ⟨rfl, rfl⟩ | ⟨rfl, rfl⟩ | ⟨rfl, rfl⟩ | ⟨rfl, rfl⟩ | ⟨rfl, rfl⟩ := h <;> rfl

theorem holdLimitOf_eq_none {n : Nat} (h : n ∉ [0, 5, 50, 500, 5000]) : holdLimitOf n = none := by
  unfold holdLimitOf
  split <;> first | rfl | simp at h

theorem severityOf_of_mem {n : Nat} {v : Severity} (h : (n, v) ∈ [(0, Severity.info), (1, .warn), (2, .alarm)]) :
    severityOf n = some v := by
  simp only [List.mem_cons, Prod.mk.injEq, List.not_mem_nil, or_false] at h
  obtain ⟨rfl, rfl⟩ | ⟨rfl, rfl⟩ | ⟨rfl, rfl⟩ := h <;> rfl

theorem severityOf_eq_none {n : Nat} (h : 2 < n) : severityOf n = none := by
  unfold severityOf
  split <;> first | omega | rfl

theorem routableOf_eq_none {n : Nat} (h : n = 0 ∨ 17 < n) : routableOf n = none := by
  unfold routableOf
  split <;> first | omega | rfl

/-! ## Allocations (R121) -/

theorem State.mayAllocate_eq (s : State) (p : Port) (n : Nat) :
    s.mayAllocate p n = true ↔
      (n < (s.port p).allocation → (s.port p).stalled = true ∧ (s.queue.filter fun e => e.origin = p).length ≤ n) := by
  simp only [State.mayAllocate, State.queuedOf, List.countP_eq_length_filter, Bool.or_eq_true, Bool.not_eq_true',
    decide_eq_false_iff_not, Bool.and_eq_true, decide_eq_true_eq]
  exact ⟨fun h hn => h.resolve_left (not_not.2 hn), fun h => (em _).symm.imp_right h⟩

theorem setAllocations_spec (hfree : PortFree s .line) (q : Byte) (l a v : Nat) :
    let mayShrink := fun (p : Port) (n : Nat) =>
      n < (s.port p).allocation → (s.port p).stalled = true ∧ (s.queue.filter fun e => e.origin = p).length ≤ n
    (l + a + v ≤ 32 → mayShrink .line l → mayShrink .accounting a → mayShrink .supervisor v →
      exec (.setAllocations .line q l a v) s =
        .next ({ s with ports :=
          { line := { s.port .line with allocation := l }
            accounting := { s.port .accounting with allocation := a }
            supervisor := { s.port .supervisor with allocation := v } } }.reply .line q .done (.allocations l a v))) ∧
    (32 < l + a + v → exec (.setAllocations .line q l a v) s = .next (s.reply .line q .badArgument .nothing)) ∧
    (l + a + v ≤ 32 → ¬ (mayShrink .line l ∧ mayShrink .accounting a ∧ mayShrink .supervisor v) →
      exec (.setAllocations .line q l a v) s = .next (s.reply .line q .allocBusy .nothing)) := by
  have hexec : exec (.setAllocations .line q l a v) s = .next (s.takeSetAllocations .line q l a v) :=
    exec_of_portFree (r := .setAllocations l a v) rfl hfree rfl
  simp only [← State.mayAllocate_eq, hexec]
  refine ⟨fun hsum hl ha hv => ?_, fun hsum => ?_, fun hsum hno => ?_⟩
  · rw [State.takeSetAllocations, if_neg (by omega), if_pos ⟨hl, ha, hv⟩]
    rfl
  · rw [State.takeSetAllocations, if_pos (by omega)]
    rfl
  · rw [State.takeSetAllocations, if_neg (by omega), if_neg hno]
    rfl

/-! ## Stall marks, hold limits and thresholds (R120, R118, R180) -/

theorem stall_spec (hfree : PortFree s .line) (q : Byte) (n : Nat) :
    (∀ p : Port, (n, p) ∈ [(1, Port.line), (2, .accounting), (3, .supervisor)] →
      exec (.stall .line q n) s = .next ((s.setPort p { s.port p with stalled := true }).reply .line q .done .nothing) ∧
      exec (.unstall .line q n) s =
        .next ((s.setPort p { s.port p with stalled := false }).reply .line q .done .nothing)) ∧
    (n = 0 ∨ 3 < n →
      exec (.stall .line q n) s = .next (s.reply .line q .badArgument .nothing) ∧
      exec (.unstall .line q n) s = .next (s.reply .line q .badArgument .nothing)) := by
  have hstall : exec (.stall .line q n) s = .next (s.takeStall .line q n true) := exec_of_portFree (r := .stall n) rfl hfree rfl
  have hunstall : exec (.unstall .line q n) s = .next (s.takeStall .line q n false) := exec_of_portFree (r := .unstall n) rfl hfree rfl
  rw [hstall, hunstall]
  refine ⟨fun p hp => ?_, fun hn => ?_⟩
  · simp only [State.takeStall, portOf_of_mem hp]
    exact ⟨rfl, rfl⟩
  · simp only [State.takeStall, portOf_eq_none hn]
    exact ⟨rfl, rfl⟩

theorem setHoldLimit_spec (hfree : PortFree s p) (q : Byte) (n : Nat) :
    (∀ l : Option Nat, (n, l) ∈ [(0, none), (5, some 5), (50, some 50), (500, some 500), (5000, some 5000)] →
      exec (.setHoldLimit p q n) s = .next ((s.setPort p { s.port p with holdLimit := l }).reply p q .done .nothing)) ∧
    (n ∉ [0, 5, 50, 500, 5000] → exec (.setHoldLimit p q n) s = .next (s.reply p q .badArgument .nothing)) := by
  have hexec : exec (.setHoldLimit p q n) s = .next (s.takeSetHoldLimit p q n) := exec_of_portFree (r := .setHoldLimit n) rfl hfree rfl
  rw [hexec]
  refine ⟨fun l hl => ?_, fun hn => ?_⟩
  · simp only [State.takeSetHoldLimit, holdLimitOf_of_mem hl]
    rfl
  · simp only [State.takeSetHoldLimit, holdLimitOf_eq_none hn]
    rfl

theorem fetchNotices_spec (hfree : PortFree s p) (q : Byte) (n : Nat) :
    (1 ≤ n → n ≤ 8 →
      exec (.fetchNotices p q n) s =
        .next ((s.setPort p { s.port p with
            notices := (s.port p).notices.drop n
            line := ((s.port p).notices.drop n).any fun e => (s.port p).threshold.rank ≤ e.severity.rank }).reply p q .done
          (.notices ((s.port p).notices.take n) ((s.port p).notices.drop n).length))) ∧
    (n = 0 ∨ 8 < n → exec (.fetchNotices p q n) s = .next (s.reply p q .badArgument .nothing)) := by
  have hexec : exec (.fetchNotices p q n) s = .next (s.takeFetchNotices p q n) := exec_of_portFree (r := .fetchNotices n) rfl hfree rfl
  rw [hexec]
  refine ⟨fun hlo hhi => ?_, fun hn => ?_⟩
  · rw [State.takeFetchNotices, if_neg (by omega), List.length_drop]
    rfl
  · rw [State.takeFetchNotices, if_pos (by omega)]
    rfl

theorem setThreshold_spec (hfree : PortFree s p) (q : Byte) (n : Nat) :
    (∀ v : Severity, (n, v) ∈ [(0, Severity.info), (1, .warn), (2, .alarm)] →
      exec (.setThreshold p q n) s =
        .next ((s.setPort p { s.port p with
            threshold := v
            line := (s.port p).notices.any fun e => v.rank ≤ e.severity.rank }).reply p q .done
          (.atThreshold ((s.port p).notices.filter fun e => v.rank ≤ e.severity.rank).length))) ∧
    (2 < n → exec (.setThreshold p q n) s = .next (s.reply p q .badArgument .nothing)) := by
  have hexec : exec (.setThreshold p q n) s = .next (s.takeSetThreshold p q n) := exec_of_portFree (r := .setThreshold n) rfl hfree rfl
  rw [hexec]
  refine ⟨fun v hv => ?_, fun hn => ?_⟩
  · simp only [State.takeSetThreshold, severityOf_of_mem hv, List.countP_eq_length_filter]
    rfl
  · simp only [State.takeSetThreshold, severityOf_eq_none hn]
    rfl

/-! ## Routes (R178) -/

/-- The route table with a kind sent to a port. -/
def rerouted (routes : List (NoticeKind × Port)) (k : NoticeKind) (p : Port) : List (NoticeKind × Port) :=
  routes.map fun (r : NoticeKind × Port) => if r.1 = k then (r.1, p) else r

theorem routeOf_rerouted_self {routes : List (NoticeKind × Port)} {k : NoticeKind} (h : ∃ old, (k, old) ∈ routes) (p : Port) :
    routeOf (rerouted routes k p) k = p := by
  obtain ⟨old, h⟩ := h
  induction routes with
  | nil => cases h
  | cons r routes ih =>
    obtain ⟨k', p'⟩ := r
    by_cases hk : k' = k
    · simp [rerouted, routeOf, hk]
    · have hm : (k, old) ∈ routes := by
        obtain h | h := List.mem_cons.1 h
        · exact absurd (congrArg Prod.fst h).symm hk
        · exact h
      have := ih hm
      simpa [rerouted, routeOf, hk, Ne.symm hk] using this

theorem routeOf_rerouted_ne (routes : List (NoticeKind × Port)) {k k' : NoticeKind} (h : k' ≠ k) (p : Port) :
    routeOf (rerouted routes k p) k' = routeOf routes k' := by
  induction routes with
  | nil => rfl
  | cons r routes ih =>
    obtain ⟨k1, p1⟩ := r
    by_cases hk : k1 = k
    · simpa [rerouted, routeOf, hk, h] using ih
    · show routeOf ((if k1 = k then _ else (k1, p1)) :: rerouted routes k p) k' = _
      rw [if_neg hk]
      exact congrArg (fun x => if k' = k1 then p1 else x) ih

theorem setRoute_spec (hfree : PortFree s .line) (q : Byte) (k n : Nat) :
    (∀ (kind : NoticeKind) (p : Port), routableOf k = some kind →
      (n, p) ∈ [(1, Port.line), (2, .accounting), (3, .supervisor)] →
      ∃ t : State,
        exec (.setRoute .line q k n) s = .next (t.reply .line q .done (.routedBefore (routeOf s.routes kind))) ∧
        t = { s with routes := t.routes } ∧
        ((∃ old, (kind, old) ∈ s.routes) → routeOf t.routes kind = p) ∧
        ∀ other : NoticeKind, other ≠ kind → routeOf t.routes other = routeOf s.routes other) ∧
    (k = 0 ∨ 17 < k ∨ n = 0 ∨ 3 < n → exec (.setRoute .line q k n) s = .next (s.reply .line q .badArgument .nothing)) := by
  have hexec : exec (.setRoute .line q k n) s = .next (s.takeSetRoute .line q k n) := exec_of_portFree (r := .setRoute k n) rfl hfree rfl
  rw [hexec]
  refine ⟨fun kind p hk hp => ?_, fun h => ?_⟩
  · refine ⟨{ s with routes := rerouted s.routes kind p }, ?_, rfl, fun h => routeOf_rerouted_self h p,
      fun other ho => routeOf_rerouted_ne s.routes ho p⟩
    simp only [State.takeSetRoute, hk, portOf_of_mem hp]
    rfl
  · by_cases hk : k = 0 ∨ 17 < k
    · simp only [State.takeSetRoute, routableOf_eq_none hk]
      rfl
    · have hn : n = 0 ∨ 3 < n := by omega
      cases hr : routableOf k <;> simp only [State.takeSetRoute, hr, portOf_eq_none hn] <;> rfl

/-- Settles O8, request by request. -/
theorem portAndNoticeRequests : Obligations.PortAndNoticeRequests := by
  refine ⟨⟨fun s q l a v h => setAllocations_spec h q l a v, fun s q n h => stall_spec h q n,
    fun s p q n h => setHoldLimit_spec h q n⟩, fun s p q n h => ?_, fun s q k n h => setRoute_spec h q k n⟩
  obtain ⟨hfetch, hfetch'⟩ := fetchNotices_spec h q n
  obtain ⟨hset, hset'⟩ := setThreshold_spec h q n
  exact ⟨hfetch, hfetch', hset, hset'⟩

/-! ## Notices (R179, R180, R116) -/

/-- An occurrence coalesces with the first entry of its key (R179). -/
theorem noticesAfter_of_key {k : Option TreeId} {d : Detail} {front back : List NoticeEntry} {e : NoticeEntry}
    (hf : ∀ x ∈ front, ¬ (x.kind = d.kind ∧ x.tree = k)) (hk : e.kind = d.kind) (ht : e.tree = k) (n : Round) :
    noticesAfter n k d (front ++ e :: back) =
      front ++ { e with count := min 65535 (e.count + 1), detail := d.over e.detail } :: back := by
  induction front with
  | nil => exact if_pos ⟨hk, ht⟩
  | cons x front ih =>
    obtain ⟨hx, hf⟩ := List.forall_mem_cons.1 hf
    show (if _ then _ else x :: noticesAfter n k d (front ++ e :: back)) = _
    rw [if_neg hx, ih hf]
    rfl

/-- An occurrence of a key that is not queued makes an entry at the back (R179). -/
theorem noticesAfter_of_new {k : Option TreeId} {d : Detail} {l : List NoticeEntry}
    (h : ∀ x ∈ l, ¬ (x.kind = d.kind ∧ x.tree = k)) (n : Round) :
    noticesAfter n k d l =
      l ++ [{ kind := d.kind, tree := k, severity := d.kind.severity, count := 1, firstSeen := n, detail := d }] := by
  induction l with
  | nil => rfl
  | cons x l ih =>
    obtain ⟨hx, h⟩ := List.forall_mem_cons.1 h
    show (if _ then _ else x :: noticesAfter n k d l) = _
    rw [if_neg hx, ih h]
    rfl

/-- Settles O9, by where the key stands in the port's queue. -/
theorem noticeCoalesces : Obligations.NoticeCoalesces := by
  intro s p k d
  rw [State.raiseAt_port]
  refine ⟨fun front back e hq hf hk ht => ⟨d.over e.detail, ?_, fun hd => ?_, ?_⟩, fun h => noticesAfter_of_new h s.round, ?_, ?_⟩
  · show noticesAfter s.round k d (s.port p).notices = _
    rw [hq, noticesAfter_of_key hf hk ht]
  · cases d <;> first | rfl | exact absurd rfl (hd _ _ _ _)
  · rintro c r ok n c' r' ok' n' rfl he
    rw [he]
    rfl
  · simp only [lineCondition, List.any_eq_true, decide_eq_true_eq]
  · refine ⟨(s.raiseAt p k d).port p, ?_⟩
    rw [State.raiseAt_port]
    rfl

end Sys2Proof.Machine
end

section
/-! PROOFS. Starting, stopping and setting a tree (O10 to O12), reading it (O13), and the admission requests (O17). -/

namespace Sys2Proof.Machine

variable {s : State}

/-! ## START TREE (R2) -/

/-- FENCE owed again to a FENCED entry, in place of a RELEASE (R65). -/
theorem Entry.owe_fence (e : Entry) :
    e.owe .fence = { e with owed := if e.owed.drop then e.owed else { e.owed with fence := true, release := false } } := rfl

theorem State.startTree_eq (k : TreeId) :
    s.startTree k =
      { s with
        trees := s.trees.set k
          { s.tree k with
            phase := .settling, settlingCount := 0
            engine := { (s.tree k).engine with
              count := 0, deferred := false, windows := [], bookedProbe := none, chosen := none }
            light := { (s.tree k).light with
              baseline := 0, suspicion := .clear, observations := [], cadence := 0, darkAnswer := none,
              lastDark := none } }
        roster := s.roster.map fun x =>
          if x.1 / 128 = k.val ∧ x.2.state = .fenced then
            (x.1, { x.2 with owed :=
              if x.2.owed.drop then x.2.owed else { x.2.owed with fence := true, release := false } })
          else x } := by
  have hslot : ∀ x : Nat × Entry,
      (if slotTree x.1 = k.val then (x.1, if x.2.state = .fenced then x.2.owe .fence else x.2) else x) =
        if x.1 / 128 = k.val ∧ x.2.state = .fenced then
          (x.1, { x.2 with owed := if x.2.owed.drop then x.2.owed else { x.2.owed with fence := true, release := false } })
        else x := by
    rintro ⟨n, e⟩
    by_cases hn : n / 128 = k.val <;> by_cases he : e.state = .fenced <;> simp [slotTree, hn, he, Entry.owe_fence]
  have hroster := funext hslot
  simp only [State.startTree, State.modTreeEntries, hroster]
  rfl

/-- Settles O10, by the phase of the tree. -/
theorem startTreeEffect : Obligations.StartTreeEffect := by
  intro s q n hfree
  have hexec : exec (.startTree .line q n) s = .next (s.takeStartTree .line q n) :=
    exec_of_portFree (r := .startTree n) rfl hfree rfl
  rw [hexec]
  refine ⟨fun k hk hp => ?_, fun k hk hp => ?_, fun hn => ?_⟩
  · subst hk
    rw [← State.startTree_eq]
    obtain hp | hp := hp <;> simp only [State.takeStartTree, treeOf_val, hp]
  · subst hk
    obtain hp | hp := hp <;> simp only [State.takeStartTree, treeOf_val, hp] <;> rfl
  · simp only [State.takeStartTree, treeOf_eq_none hn]
    rfl

/-! ## Admission (R36 to R38, R42) -/

theorem contractOk_eq_true {c p w : Nat} (hc : c ≤ 1875) (hcp : c ≤ p) (hp : 1 ≤ p) (hp' : p ≤ 1875) (hw : 1 ≤ w)
    (hw' : w ≤ 255) : contractOk c p w = true := by
  simp only [contractOk, hc, hcp, hp, hp', hw, hw', decide_true, Bool.and_self]

theorem contractOk_eq_false {c p w : Nat} (h : 1875 < c ∨ p < c ∨ p = 0 ∨ 1875 < p ∨ w = 0 ∨ 255 < w) :
    contractOk c p w = false := by
  rw [← Bool.not_eq_true]
  simp only [contractOk, Bool.and_eq_true, decide_eq_true_eq]
  omega

theorem admitTree_of {n : Nat} {tree : Option TreeId} (h : n = 255 ∧ tree = none ∨ ∃ k : TreeId, n = k.val ∧ tree = some k) :
    admitTree n = some tree := by
  obtain ⟨rfl, rfl⟩ | ⟨k, rfl, rfl⟩ := h
  · rfl
  · have hne : k.val ≠ 255 := by omega
    simp only [admitTree, if_neg hne, treeOf_val, Option.map_some]

theorem admitTree_eq_none {n : Nat} (h : 4 ≤ n) (h' : n ≠ 255) : admitTree n = none := by
  simp only [admitTree, if_neg h', treeOf_eq_none h, Option.map_none]

section
variable (hfree : PortFree s .line) (q : Byte)
include hfree

theorem admit_spec (serial : Serial) {n c p w : Nat} {tree : Option TreeId}
    (ht : n = 255 ∧ tree = none ∨ ∃ k : TreeId, n = k.val ∧ tree = some k) (hc : c ≤ 1875) (hcp : c ≤ p) (hp : 1 ≤ p)
    (hp' : p ≤ 1875) (hw : 1 ≤ w) (hw' : w ≤ 255) :
    let list := Store.write serial.toNat
      { serial := serial, tree := tree, contract := { c := c, p := p, w := w } } s.admissions
    (∀ r : Admission, Store.read serial.toNat s.admissions = some r →
      exec (.admitHome .line q serial n c p w) s =
        .next ({ s with admissions := list }.reply .line q .done (.admitted list.length true))) ∧
    (Store.read serial.toNat s.admissions = none → s.admissions.length < 256 →
      exec (.admitHome .line q serial n c p w) s =
        .next ({ s with admissions := list }.reply .line q .done (.admitted list.length false))) ∧
    (Store.read serial.toNat s.admissions = none → 256 ≤ s.admissions.length →
      exec (.admitHome .line q serial n c p w) s = .next (s.reply .line q .listFull .nothing)) := by
  have hexec : exec (.admitHome .line q serial n c p w) s = .next (s.takeAdmit .line q serial n c p w) :=
    exec_of_portFree (r := .admitHome serial n c p w) rfl hfree rfl
  simp only [hexec, State.takeAdmit, admitTree_of ht, contractOk_eq_true hc hcp hp hp' hw hw', Bool.true_eq_false, if_false,
    admissionPlaces]
  refine ⟨fun r hr => ?_, fun hr hl => ?_, fun hr hl => ?_⟩
  · simp [hr]
  · simp [hr, Nat.not_le.2 hl]
  · simp [hr, hl, State.refuse]

theorem admit_badArgument (serial : Serial) {n c p w : Nat}
    (h : (4 ≤ n ∧ n ≠ 255) ∨ 1875 < c ∨ p < c ∨ p = 0 ∨ 1875 < p ∨ w = 0 ∨ 255 < w) :
    exec (.admitHome .line q serial n c p w) s = .next (s.reply .line q .badArgument .nothing) := by
  have hexec : exec (.admitHome .line q serial n c p w) s = .next (s.takeAdmit .line q serial n c p w) :=
    exec_of_portFree (r := .admitHome serial n c p w) rfl hfree rfl
  rw [hexec]
  obtain ⟨hn, hn'⟩ | h := h
  · simp only [State.takeAdmit, admitTree_eq_none hn hn']
    rfl
  · cases ht : admitTree n <;> simp only [State.takeAdmit, ht, contractOk_eq_false h, if_true] <;> rfl

theorem strike_spec (serial : Serial) :
    (∀ r : Admission, Store.read serial.toNat s.admissions = some r →
      exec (.strike .line q serial) s =
        .next ({ s with admissions := Store.erase serial.toNat s.admissions }.reply .line q .done
          (.struck (Store.erase serial.toNat s.admissions).length))) ∧
    (Store.read serial.toNat s.admissions = none →
      exec (.strike .line q serial) s = .next (s.reply .line q .noSuchHome .nothing)) := by
  have hexec : exec (.strike .line q serial) s = .next (s.takeStrike .line q serial) :=
    exec_of_portFree (r := .strike serial) rfl hfree rfl
  rw [hexec]
  refine ⟨fun r hr => ?_, fun hr => ?_⟩ <;> simp only [State.takeStrike, hr]
  rfl

theorem setAdmissionMode_spec (n : Nat) :
    exec (.setAdmissionMode .line q 0) s = .next ({ s with openMode := false }.reply .line q .done .nothing) ∧
    exec (.setAdmissionMode .line q 1) s = .next ({ s with openMode := true }.reply .line q .done .nothing) ∧
    (2 ≤ n → exec (.setAdmissionMode .line q n) s = .next (s.reply .line q .badArgument .nothing)) := by
  have hexec : ∀ n, exec (.setAdmissionMode .line q n) s = .next (s.takeSetAdmissionMode .line q n) := fun n =>
    exec_of_portFree (r := .setAdmissionMode n) rfl hfree rfl
  refine ⟨hexec 0, hexec 1, fun hn => ?_⟩
  obtain ⟨m, rfl⟩ := Nat.exists_eq_add_of_le' hn
  exact hexec (m + 2)

theorem calls_spec (n : Nat) :
    (∀ k : TreeId, n = k.val →
      exec (.callsOn .line q n) s =
        .next ((s.setTree k { s.tree k with engine := { (s.tree k).engine with calls := true } }).reply
          .line q .done .nothing) ∧
      exec (.callsOff .line q n) s =
        .next ((s.setTree k { s.tree k with engine := { (s.tree k).engine with calls := false } }).reply
          .line q .done .nothing)) ∧
    (4 ≤ n →
      exec (.callsOn .line q n) s = .next (s.reply .line q .badArgument .nothing) ∧
      exec (.callsOff .line q n) s = .next (s.reply .line q .badArgument .nothing)) := by
  have hon : exec (.callsOn .line q n) s = .next (s.takeCalls .line q n true) :=
    exec_of_portFree (r := .callsOn n) rfl hfree rfl
  have hoff : exec (.callsOff .line q n) s = .next (s.takeCalls .line q n false) :=
    exec_of_portFree (r := .callsOff n) rfl hfree rfl
  rw [hon, hoff]
  refine ⟨fun k hk => ?_, fun hn => ?_⟩
  · subst hk
    simp only [State.takeCalls, treeOf_val]
    exact ⟨rfl, rfl⟩
  · simp only [State.takeCalls, treeOf_eq_none hn]
    exact ⟨rfl, rfl⟩

end

/-- Settles O17, request by request. -/
theorem admissionRequests : Obligations.AdmissionRequests := by
  refine ⟨fun s q serial hfree => ⟨fun n c p w tree ht hc hcp hp hp' hw hw' =>
    admit_spec hfree q serial ht hc hcp hp hp' hw hw', fun n c p w h => admit_badArgument hfree q serial h,
    strike_spec hfree q serial⟩, fun s q n hfree => ?_⟩
  obtain ⟨hlisted, hopen, hbad⟩ := setAdmissionMode_spec hfree q n
  exact ⟨hlisted, hopen, hbad, calls_spec hfree q n⟩

/-! ## READ TREE and READ METERS (R16, R156) -/

theorem readTree_spec (hfree : PortFree s .line) (q : Byte) (k : TreeId) :
    exec (.readTree .line q k.val) s =
      .next (s.reply .line q .done (.treeReading
        { round := s.round, phase := (s.tree k).phase, settlingCount := (s.tree k).settlingCount
          settings := (s.tree k).settings
          limitValue := (s.tree k).light.limitValue, limitScale := (s.tree k).light.limitScale
          m := (s.tree k).light.m, v := (s.tree k).light.v, mOver := (s.tree k).light.mOver
          bookedCall := (s.tree k).bookedCall, bookedDark := (s.tree k).bookedDark
          bookingSum := ((s.treeEntries k).map fun x =>
            if 0 < x.2.booked then x.2.booked + (s.tree k).settings.overhead else 0).sum
          calls := (s.tree k).engine.calls, collisions := (s.tree k).engine.collisions
          counts := (128 - (s.treeEntries k).length) ::
            [EntryState.heard, .timed, .active, .silent, .fenced, .leaving].map fun st =>
              ((s.treeEntries k).filter fun x => x.2.state = st).length
          lead := (s.tree k).lead
          fill := ((s.tree k).framer.buffer.map fun p => p.payload.length).sum })) := by
  have hexec : exec (.readTree .line q k.val) s = .next (s.takeReadTree .line q k.val) :=
    exec_of_portFree (r := .readTree k.val) rfl hfree rfl
  simp only [hexec, State.takeReadTree, treeOf_val, State.stateCounts, List.countP_eq_length_filter]
  rfl

theorem readMeters_spec (hfree : PortFree s .accounting) (q : Byte) (k : TreeId) {tag : Nat} (hlo : 1 ≤ tag) (hhi : tag ≤ 128) :
    ∃ r : MeterReading,
      exec (.readMeters .accounting q k.val tag) s = .next (s.reply .accounting q .done (.meterReading r)) ∧
      r.round = s.round ∧ r.band = s.band ∧ r.meters = s.meterOf k tag ∧
      (s.entry k tag = none → r.state = .vacant ∧ r.occupant = none ∧ r.capped = false) ∧
      (∀ e : Entry, s.entry k tag = some e →
        r.state = e.state ∧ r.occupant = some (e.serial, e.occupied) ∧ r.capped = e.capped) ∧
      ∀ x : Nat × Watch, x ∈ r.watches ↔ x ∈ s.watches ∧ x.2.tree = k ∧ x.2.tag = tag := by
  have hexec : exec (.readMeters .accounting q k.val tag) s = .next (s.takeReadMeters .accounting q k.val tag) :=
    exec_of_portFree (r := .readMeters k.val tag) rfl hfree rfl
  rw [hexec]
  simp only [State.takeReadMeters, treeOf_val, tagOk_eq_true_iff.2 ⟨hlo, hhi⟩, Bool.true_eq_false, if_false]
  refine ⟨_, rfl, rfl, rfl, rfl, fun h => ?_, fun e h => ?_, fun x => ?_⟩
  · simp [State.slotState, h]
  · simp [State.slotState, h]
  · simp [List.mem_filter]

/-- Settles O13. -/
theorem readTreeAndMetersAnswer : Obligations.ReadTreeAndMetersAnswer := by
  refine ⟨fun s q hfree => ⟨fun k => readTree_spec hfree q k, fun n hn => ?_⟩,
    fun s q hfree => ⟨fun k tag hlo hhi => readMeters_spec hfree q k hlo hhi, fun n tag h => ?_⟩⟩
  · have hexec : exec (.readTree .line q n) s = .next (s.takeReadTree .line q n) :=
      exec_of_portFree (r := .readTree n) rfl hfree rfl
    simp only [hexec, State.takeReadTree, treeOf_eq_none hn]
    rfl
  · have hexec : exec (.readMeters .accounting q n tag) s = .next (s.takeReadMeters .accounting q n tag) :=
      exec_of_portFree (r := .readMeters n tag) rfl hfree rfl
    rw [hexec]
    obtain hn | htag := h
    · simp only [State.takeReadMeters, treeOf_eq_none hn]
      rfl
    · cases ht : treeOf n <;> simp only [State.takeReadMeters, ht, tagOk_eq_false_iff.2 htag, if_true] <;> rfl

end Sys2Proof.Machine
end

section
/-! PROOFS. What a slot reads after an operation on the roster of a tree, the entries of a tree by tag, and the packet that waits
at the interface; SET TREE (O12) and STOP TREE (O11). -/

namespace Sys2Proof.Machine

variable {s : State}

/-! ## Reading a slot -/

section
variable {α : Type}

theorem Store.read_eq_none {k : Nat} {st : Store α} (h : ∀ x ∈ st, x.1 ≠ k) : Store.read k st = none := by
  induction st with
  | nil => rfl
  | cons x st ih =>
    obtain ⟨hx, h⟩ := List.forall_mem_cons.1 h
    rw [Store.read_cons, if_neg (Ne.symm hx), ih h]

/-- What a key reads after every pair has its value changed, or is taken out, by its key and value. -/
theorem Store.read_filterMap {st : Store α} (hw : Store.Wf st) (g : Nat → α → Option α) (k : Nat) :
    Store.read k (st.filterMap fun x => (g x.1 x.2).map fun v => (x.1, v)) = (Store.read k st).bind (g k) := by
  induction st with
  | nil => rfl
  | cons x st ih =>
    obtain ⟨k1, v1⟩ := x
    obtain ⟨hlt, hw⟩ := List.pairwise_cons.1 hw
    have ih := ih hw
    by_cases hk : k = k1
    · subst hk
      have hrest : Store.read k st = none := Store.read_eq_none fun x hx => Nat.ne_of_gt (hlt x hx)
      rw [hrest] at ih
      cases hg : g k v1 <;> simp [hg, Store.read_cons, ih]
    · cases hg : g k1 v1 <;> simp [hg, Store.read_cons, hk, ih]

theorem Store.read_map (g : Nat → α → α) (k : Nat) (st : Store α) :
    Store.read k (st.map fun x => (x.1, g x.1 x.2)) = (Store.read k st).map (g k) := by
  induction st with
  | nil => rfl
  | cons x st ih =>
    obtain ⟨k1, v1⟩ := x
    by_cases hk : k = k1
    · subst hk
      simp [Store.read_cons]
    · simpa [Store.read_cons, hk] using ih

end

/-- An operation on each entry of a tree, read at a slot of the tree. -/
theorem State.modTreeEntries_entry (f : Nat → Entry → Entry) (k : TreeId) {tag : Nat} (h : tagOk tag = true) :
    (s.modTreeEntries k f).entry k tag = (s.entry k tag).map (f tag) := by
  obtain ⟨htree, htag, -⟩ := slot_of_slotOf (t := k) h
  have hread := Store.read_map (fun n e => if slotTree n = k.val then f (slotTag n) e else e) (slotOf k tag) s.roster
  simp only [htree, if_true, htag] at hread
  rw [State.entry, State.entry, ← hread, State.modTreeEntries]
  refine congrArg (Store.read _) (List.map_congr_left fun x _ => ?_)
  split <;> rfl

/-- An operation on each entry of a tree leaves the slots of the others. -/
theorem State.modTreeEntries_entry_ne (f : Nat → Entry → Entry) {j k : TreeId} {tag : Nat} (h : tagOk tag = true) (hj : j ≠ k) :
    (s.modTreeEntries k f).entry j tag = s.entry j tag := by
  obtain ⟨htree, -, -⟩ := slot_of_slotOf (t := j) h
  have hne : ¬ j.val = k.val := fun hc => hj (Fin.ext hc)
  have hread := Store.read_map (fun n e => if slotTree n = k.val then f (slotTag n) e else e) (slotOf j tag) s.roster
  simp only [htree, if_neg hne, Option.map_id'] at hread
  rw [State.entry, State.entry, ← hread, State.modTreeEntries]
  refine congrArg (Store.read _) (List.map_congr_left fun x _ => ?_)
  split <;> rfl

/-- What a store keyed by slot holds for one tree, by tag. -/
def Store.ofTree {α : Type} (k : TreeId) (st : Store α) : List (Nat × α) :=
  st.filterMap fun x => if slotTree x.1 = k.val then some (slotTag x.1, x.2) else none

/-- A store keyed by slot holds for one tree what its 128 slots read, in ascending tag. -/
theorem Store.ofTree_eq {α : Type} {st : Store α} (hw : Store.Wf st) (k : TreeId) :
    Store.ofTree k st = allTags.filterMap fun tag => (Store.read (slotOf k tag) st).map fun v => (tag, v) := by
  have hmem : ∀ x : Nat × α, x ∈ Store.ofTree k st ↔
      x ∈ allTags.filterMap fun tag => (Store.read (slotOf k tag) st).map fun v => (tag, v) := by
    rintro ⟨tag, v⟩
    simp only [Store.ofTree, List.mem_filterMap, Option.map_eq_some_iff, Prod.mk.injEq, Prod.exists]
    constructor
    · rintro ⟨n, v', hn, hx⟩
      split at hx
      · rename_i htree
        cases hx
        have hslot : slotOf k (slotTag n) = n := by
          simp only [slotTree] at htree
          simp only [slotOf, slotTag]
          omega
        have hok := tagOk_eq_true_iff.1 (tagOk_slotTag n)
        exact ⟨_, List.mem_range'_1.2 (by omega), v, hslot.symm ▸ Store.read_of_mem hw hn, rfl, rfl⟩
      · cases hx
    · rintro ⟨tag, hok, v, hv, rfl, rfl⟩
      have hok : 1 ≤ tag ∧ tag < 1 + 128 := List.mem_range'_1.1 hok
      obtain ⟨htree, htag, -⟩ := slot_of_slotOf (t := k) (tag := tag) (tagOk_eq_true_iff.2 (by omega))
      exact ⟨_, v, Store.mem_of_read hv, by rw [if_pos htree, htag]⟩
  have hl : (Store.ofTree k st).Pairwise fun a b => a.1 < b.1 := by
    refine hw.filterMap _ fun a b hab x hx y hy => ?_
    split at hx
    · split at hy
      · cases hx
        cases hy
        simp only [slotTag, slotTree] at *
        omega
      · cases hy
    · cases hx
  have hr : (allTags.filterMap fun tag => (Store.read (slotOf k tag) st).map fun v => (tag, v)).Pairwise
      fun a b => a.1 < b.1 := by
    refine List.pairwise_filterMap.2 ((List.pairwise_lt_range' 1).imp fun {a b} hab x hx y hy => ?_)
    obtain ⟨-, -, rfl⟩ := Option.map_eq_some_iff.1 hx
    obtain ⟨-, -, rfl⟩ := Option.map_eq_some_iff.1 hy
    exact hab
  have hne : ∀ {a b : Nat × α}, a.1 < b.1 → a ≠ b := fun h hc => absurd (congrArg Prod.fst hc) (Nat.ne_of_lt h)
  exact ((List.perm_ext_iff_of_nodup (hl.imp hne) (hr.imp hne)).2 hmem).eq_of_pairwise
    (fun a b _ _ h h' => absurd h (Nat.lt_asymm h')) hl hr

/-- The entries of a tree are what its 128 slots read, in ascending tag. -/
theorem State.treeEntries_eq (hw : Store.Wf s.roster) (k : TreeId) :
    s.treeEntries k = allTags.filterMap fun tag => (s.entry k tag).map fun e => (tag, e) := Store.ofTree_eq hw k

/-! ## Staging a change (R112, R117) -/

section
variable {p : Port}

theorem State.mayEnter_iff : s.mayEnter p = true ↔ QueueOpen s p := by
  simp only [State.mayEnter, QueueOpen, State.queuedOf, List.countP_eq_length_filter, Bool.and_eq_true, Bool.not_eq_true',
    decide_eq_true_eq]

theorem State.stageChange_of_open (h : QueueOpen s p) (q : Byte) (c : Change) :
    s.stageChange p q c = (s.enterQueue p c s.round).reply p q .staged .nothing := if_pos (State.mayEnter_iff.2 h)

theorem State.stageChange_of_not_open (h : ¬ QueueOpen s p) (q : Byte) (c : Change) :
    s.stageChange p q c = heldWith s p q c := if_neg fun hc => h (State.mayEnter_iff.1 hc)

end

/-! ## SET TREE (R13, R14) -/

/-- What SET TREE does with a setting it knows, check after check. -/
theorem exec_setTree (hfree : PortFree s .line) (q : Byte) (k : TreeId) {code : Nat} {name : SettingName}
    (hcode : settingOf code = some name) (v : Nat) :
    exec (.setTree .line q k.val code v) s = .next
      (if settingInRange (s.tree k).settings name v = false then s.reply .line q .badArgument .nothing
      else if name.atOnce ∧ (s.tree k).phase ≠ .down then s.reply .line q .wrongState .nothing
      else if s.bookingPasses (.treeSetting k name v) s.round = false then s.reply .line q .overbook .nothing
      else if name.atOnce then (s.setAtOnce k name v).reply .line q .done .nothing
      else s.stageChange .line q (.treeSetting k name v)) := by
  have hexec : exec (.setTree .line q k.val code v) s = .next (s.takeSetTree .line q k.val code v) :=
    exec_of_portFree (r := .setTree k.val code v) rfl hfree rfl
  simp only [hexec, State.takeSetTree, treeOf_val, hcode]
  rfl

section
variable (hfree : PortFree s .line) (q : Byte) (k : TreeId) {v : Nat}
include hfree

/-- A setting carried out at once on a DOWN tree, whose booking check passes. -/
theorem setTree_done {code : Nat} {name : SettingName} (hcode : settingOf code = some name) (hname : name.atOnce = true)
    (hdown : (s.tree k).phase = .down) (hv : settingInRange (s.tree k).settings name v = true)
    (hb : s.bookingPasses (.treeSetting k name v) s.round = true) :
    exec (.setTree .line q k.val code v) s = .next ((s.setAtOnce k name v).reply .line q .done .nothing) := by
  rw [exec_setTree hfree q k hcode, if_neg (by rw [hv]; decide), if_neg fun h => h.2 hdown, if_neg (by rw [hb]; decide),
    if_pos hname]

theorem setTree_badArgument {code : Nat} {name : SettingName} (hcode : settingOf code = some name)
    (hv : settingInRange (s.tree k).settings name v = false) :
    exec (.setTree .line q k.val code v) s = .next (s.reply .line q .badArgument .nothing) := by
  rw [exec_setTree hfree q k hcode, if_pos hv]

theorem setTree_wrongState {code : Nat} {name : SettingName} (hcode : settingOf code = some name) (hname : name.atOnce = true)
    (hdown : (s.tree k).phase ≠ .down) (hv : settingInRange (s.tree k).settings name v = true) :
    exec (.setTree .line q k.val code v) s = .next (s.reply .line q .wrongState .nothing) := by
  rw [exec_setTree hfree q k hcode, if_neg (by rw [hv]; decide), if_pos ⟨hname, hdown⟩]

/-- A setting that waits for a cut, whose booking check passes, is staged or held. -/
theorem setTree_staged {code : Nat} {name : SettingName} (hcode : settingOf code = some name) (hname : name.atOnce = false)
    (hv : settingInRange (s.tree k).settings name v = true)
    (hb : s.bookingPasses (.treeSetting k name v) s.round = true) :
    exec (.setTree .line q k.val code v) s = .next (s.stageChange .line q (.treeSetting k name v)) := by
  simp only [exec_setTree hfree q k hcode, hv, hname, hb, Bool.true_eq_false, if_false, false_and, Bool.false_eq_true]

theorem setTree_overbook {code : Nat} {name : SettingName} (hcode : settingOf code = some name)
    (hname : ¬ (name.atOnce = true ∧ (s.tree k).phase ≠ .down)) (hv : settingInRange (s.tree k).settings name v = true)
    (hb : s.bookingPasses (.treeSetting k name v) s.round = false) :
    exec (.setTree .line q k.val code v) s = .next (s.reply .line q .overbook .nothing) := by
  rw [exec_setTree hfree q k hcode, if_neg (by rw [hv]; decide), if_neg hname, if_pos hb]

theorem setOverhead_of_down (hdown : (s.tree k).phase = .down) (hlo : 2 ≤ v) (hhi : v ≤ 8) :
    exec (.setTree .line q k.val 3 v) s =
      if s.bookingWith k v + (s.tree k).bookedCall + (s.tree k).bookedDark ≤ 1875 then
        .next ((s.setTree k { s.tree k with settings := { (s.tree k).settings with overhead := v } }).reply
          .line q .done .nothing)
      else .next (s.reply .line q .overbook .nothing) := by
  have hv : settingInRange (s.tree k).settings .overhead v = true := by simp [settingInRange, hlo, hhi]
  split <;> rename_i hb
  · exact setTree_done hfree q k (name := .overhead) rfl rfl hdown hv (decide_eq_true hb)
  · exact setTree_overbook hfree q k (name := .overhead) rfl (fun h => h.2 hdown) hv
      (decide_eq_false hb)

end

/-- The clamp of an entry's delays to a new T, by its state (R14, R19). -/
theorem Entry.clampDelay_spec (e : Entry) (v : Nat) :
    (∀ f : Heard, e.body = .heard f →
      e.clampDelay v = { e with body := .heard { f with keptDelay := f.keptDelay.map (min v) } }) ∧
    (∀ f : Timed, e.body = .timed f →
      e.clampDelay v = { e with body := .timed { f with e := min v f.e, former := f.former.map (min v) } }) ∧
    (∀ f : Active, e.body = .active f → e.clampDelay v = { e with body := .active { f with e := min v f.e } }) ∧
    (∀ f : Silent, e.body = .silent f → e.clampDelay v = { e with body := .silent { f with e := min v f.e } }) ∧
    (∀ f : Fenced, e.body = .fenced f → e.clampDelay v = { e with body := .fenced { f with e := min v f.e } }) ∧
    ∀ d : Option Nat, e.body = .leaving d → e.clampDelay v = { e with body := .leaving (d.map (min v)) } := by
  refine ⟨?_, ?_, ?_, ?_, ?_, ?_⟩ <;> intro f hf <;> simp only [Entry.clampDelay, hf]

/-- A new T in force reads at each slot of the tree as the entry with its delays clamped (R14). -/
theorem State.setAtOnce_target_entry (k : TreeId) (v : Nat) {tag : Nat} (h : tagOk tag = true) :
    (s.setAtOnce k .target v).entry k tag = (s.entry k tag).map (Entry.clampDelay v) :=
  State.modTreeEntries_entry (s := s.modTree k fun x => { x with settings := x.settings.put .target v })
    (fun _ e => e.clampDelay v) k h

theorem State.setAtOnce_target_entry_ne {j k : TreeId} (v : Nat) {tag : Nat} (h : tagOk tag = true) (hj : j ≠ k) :
    (s.setAtOnce k .target v).entry j tag = s.entry j tag :=
  State.modTreeEntries_entry_ne (s := s.modTree k fun x => { x with settings := x.settings.put .target v })
    (fun _ e => e.clampDelay v) h hj

/-- The settings that wait for a cut and book nothing, by their codes and ranges (section 1.5, R13). -/
theorem unbookedSetting {code lo hi : Nat} {name : SettingName}
    (h : (code, name, lo, hi) ∈ [(4, SettingName.minBurst, 1, 64), (6, .kCall, 1, 1024), (8, .kDark, 1, 256),
      (9, .poll, 1, 64), (10, .silence, 1, 16), (11, .defaultPeak, 1, 1875)]) :
    settingOf code = some name ∧ name.atOnce = false ∧
      (∀ x v, settingInRange x name v = (decide (lo ≤ v) && decide (v ≤ hi))) ∧
      (∀ (s : State) k v r, s.bookingPasses (.treeSetting k name v) r = true) ∧
      ∀ (s : State) p k v, s.enterQueue p (.treeSetting k name v) s.round =
        { s with queue := queueWith s p (.treeSetting k name v) } := by
  simp only [List.mem_cons, Prod.mk.injEq, List.not_mem_nil, or_false] at h
  obtain ⟨rfl, rfl, rfl, rfl⟩ | ⟨rfl, rfl, rfl, rfl⟩ | ⟨rfl, rfl, rfl, rfl⟩ | ⟨rfl, rfl, rfl, rfl⟩ | ⟨rfl, rfl, rfl, rfl⟩ |
    ⟨rfl, rfl, rfl, rfl⟩ := h <;>
  exact ⟨rfl, rfl, fun _ _ => rfl, fun _ _ _ _ => rfl, fun _ _ _ _ => rfl⟩

/-- The codes of the settings that wait for a cut, with their ranges (section 1.5). -/
theorem settingOf_waiting {code lo hi v : Nat}
    (h : (code, lo, hi) ∈ [(4, 1, 64), (5, 16, 1600), (6, 1, 1024), (7, 4, 64), (8, 1, 256), (9, 1, 64), (10, 1, 16),
      (11, 1, 1875)]) (hv : v < lo ∨ hi < v) (x : Settings) :
    ∃ name, settingOf code = some name ∧ settingInRange x name v = false := by
  have hout : (decide (lo ≤ v) && decide (v ≤ hi)) = false := by
    rw [← Bool.not_eq_true, Bool.and_eq_true, decide_eq_true_eq, decide_eq_true_eq]
    omega
  simp only [List.mem_cons, Prod.mk.injEq, List.not_mem_nil, or_false] at h
  obtain ⟨rfl, rfl, rfl⟩ | ⟨rfl, rfl, rfl⟩ | ⟨rfl, rfl, rfl⟩ | ⟨rfl, rfl, rfl⟩ | ⟨rfl, rfl, rfl⟩ | ⟨rfl, rfl, rfl⟩ |
    ⟨rfl, rfl, rfl⟩ | ⟨rfl, rfl, rfl⟩ := h <;> exact ⟨_, rfl, hout⟩

theorem settingOf_eq_none {code : Nat} (h : code = 0 ∨ 11 < code) : settingOf code = none := by
  unfold settingOf
  split <;> first | omega | rfl

/-- Settles O12: T, N and H at once (codes 1 to 3), then the settings that wait for a cut. -/
theorem setTreeEffect : Obligations.SetTreeEffect := by
  refine ⟨fun s q k v hfree => ⟨fun hdown => ⟨fun hlo hhi => ?_, fun hv _ => ?_,
      setOverhead_of_down hfree q k hdown⟩, fun hdown => ⟨fun hlo hhi => ?_, fun hv => ?_, fun hlo hhi => ?_⟩,
      fun hv => ?_, fun hv => ?_, fun hv => ?_⟩,
    fun s q k v hfree => ⟨fun hopen => ⟨fun code lo hi name hmem hlo hhi => ?_, fun hlo hhi => ?_, fun hlo hhi => ?_⟩,
      fun hopen => ⟨fun code lo hi name hmem hlo hhi => ?_, fun hlo hhi => ?_, fun hlo hhi => ?_⟩,
      fun code lo hi hmem hv => ?_, fun n code h => ?_⟩⟩
  · refine ⟨_, setTree_done hfree q k (name := .target) rfl rfl hdown (by simp [settingInRange, hlo, hhi]) rfl, rfl, fun tag e ht he => ?_, fun j tag ht h => ?_⟩
    · obtain ⟨hheard, htimed, hactive, hsilent, hfenced, hleaving⟩ := e.clampDelay_spec v
      simp only [State.setAtOnce_target_entry k v ht, he, Option.map_some]
      exact ⟨fun f hf => congrArg some (hheard f hf), fun f hf => congrArg some (htimed f hf),
        fun f hf => congrArg some (hactive f hf), fun f hf => congrArg some (hsilent f hf),
        fun f hf => congrArg some (hfenced f hf), fun d hd => congrArg some (hleaving d hd)⟩
    · by_cases hj : j = k
      · subst hj
        have hvacant : s.entry j tag = none := h.resolve_left (absurd rfl)
        rw [State.setAtOnce_target_entry j v ht, hvacant, Option.map_none]
      · exact State.setAtOnce_target_entry_ne v ht hj
  · exact setTree_done hfree q k (name := .nearBound) rfl rfl hdown (by simp [settingInRange, hv]) rfl
  · exact setTree_wrongState hfree q k (name := .target) rfl rfl hdown (by simp [settingInRange, hlo, hhi])
  · exact setTree_wrongState hfree q k (name := .nearBound) rfl rfl hdown (by simp [settingInRange, hv])
  · exact setTree_wrongState hfree q k (name := .overhead) rfl rfl hdown (by simp [settingInRange, hlo, hhi])
  · refine setTree_badArgument hfree q k (name := .target) rfl ?_
    simp only [settingInRange, Bool.and_eq_false_iff, decide_eq_false_iff_not]
    omega
  · exact setTree_badArgument hfree q k (name := .nearBound) rfl (by simpa [settingInRange] using hv)
  · refine setTree_badArgument hfree q k (name := .overhead) rfl ?_
    simp only [settingInRange, Bool.and_eq_false_iff, decide_eq_false_iff_not]
    omega
  · obtain ⟨hcode, hname, hrange, hbook, henter⟩ := unbookedSetting hmem
    rw [setTree_staged hfree q k hcode hname (by simp [hrange, hlo, hhi]) (hbook s k v _), State.stageChange_of_open hopen, henter]
  · split <;> rename_i hb
    · rw [setTree_staged hfree q k (name := .wCall) rfl rfl (by simp [settingInRange, hlo, hhi])
        (decide_eq_true hb), State.stageChange_of_open hopen]
      rfl
    · exact setTree_overbook hfree q k (name := .wCall) rfl (fun h => absurd h.1 nofun) (by simp [settingInRange, hlo, hhi])
        (decide_eq_false hb)
  · split <;> rename_i hb
    · rw [setTree_staged hfree q k (name := .wDark) rfl rfl (by simp [settingInRange, hlo, hhi])
        (decide_eq_true hb), State.stageChange_of_open hopen]
      rfl
    · exact setTree_overbook hfree q k (name := .wDark) rfl (fun h => absurd h.1 nofun) (by simp [settingInRange, hlo, hhi])
        (decide_eq_false hb)
  · obtain ⟨hcode, hname, hrange, hbook, -⟩ := unbookedSetting hmem
    rw [setTree_staged hfree q k hcode hname (by simp [hrange, hlo, hhi]) (hbook s k v _), State.stageChange_of_not_open hopen]
  · split <;> rename_i hb
    · rw [setTree_staged hfree q k (name := .wCall) rfl rfl (by simp [settingInRange, hlo, hhi])
        (decide_eq_true hb), State.stageChange_of_not_open hopen]
    · exact setTree_overbook hfree q k (name := .wCall) rfl (fun h => absurd h.1 nofun) (by simp [settingInRange, hlo, hhi])
        (decide_eq_false hb)
  · split <;> rename_i hb
    · rw [setTree_staged hfree q k (name := .wDark) rfl rfl (by simp [settingInRange, hlo, hhi])
        (decide_eq_true hb), State.stageChange_of_not_open hopen]
    · exact setTree_overbook hfree q k (name := .wDark) rfl (fun h => absurd h.1 nofun) (by simp [settingInRange, hlo, hhi])
        (decide_eq_false hb)
  · obtain ⟨name, hcode, hrange⟩ := settingOf_waiting hmem hv (s.tree k).settings
    exact setTree_badArgument hfree q k hcode hrange
  · have hexec : exec (.setTree .line q n code v) s = .next (s.takeSetTree .line q n code v) :=
      exec_of_portFree (r := .setTree n code v) rfl hfree rfl
    rw [hexec]
    obtain hn | hcode := h
    · cases hcode : settingOf code <;> simp only [State.takeSetTree, treeOf_eq_none hn] <;> rfl
    · cases hn : treeOf n <;> simp only [State.takeSetTree, settingOf_eq_none hcode, hn] <;> rfl

/-! ## STOP TREE (R6 to R8) -/

/-- What a stop makes of an entry, by its state (R7). -/
theorem Entry.stopped_eq (e : Entry) :
    e.stopped =
      match e.body with
      | .heard f => f.keptDelay.map fun d => { e with owed := Owed.none, body := .silent { e := d, hushed := false } }
      | .timed f => f.former.map fun d => { e with owed := Owed.none, body := .silent { e := d, hushed := false } }
      | .active f => some { e with owed := Owed.none, body := .silent { e := f.e, hushed := false } }
      | .silent f => some { e with owed := Owed.none, body := .silent { e := f.e, hushed := false } }
      | .fenced f =>
        if f.trial then some { e with owed := Owed.none, body := .silent { e := f.e, hushed := false } }
        else some { e with owed := Owed.none
                           body := .fenced { f with need := 0, credit := 0, history := [], hushed := false } }
      | .leaving _ => none := by
  obtain ⟨serial, occupied, contract, booked, capped, owed, body⟩ := e
  cases body with
  | heard f => cases hd : f.keptDelay <;> simp only [Entry.stopped, hd] <;> rfl
  | timed f => cases hd : f.former <;> simp only [Entry.stopped, hd] <;> rfl
  | active f => rfl
  | silent f => rfl
  | fenced f => rfl
  | leaving d => rfl

/-- What a slot reads after a stop of a tree (R7). -/
theorem read_stoppedRoster {roster : Store Entry} (hw : Store.Wf roster) (k : TreeId) (n : Nat) :
    Store.read n (stoppedRoster k roster) =
      if slotTree n = k.val then (Store.read n roster).bind Entry.stopped else Store.read n roster := by
  have hread := Store.read_filterMap hw (fun n e => if slotTree n = k.val then e.stopped else some e) n
  have hroster : stoppedRoster k roster =
      roster.filterMap fun x => (if slotTree x.1 = k.val then x.2.stopped else some x.2).map fun e => (x.1, e) := by
    refine List.filterMap_congr fun x _ => ?_
    split <;> rfl
  rw [hroster, hread]
  split <;> simp

section
variable {k j : TreeId} {tag : Nat}

@[simp] theorem State.takeHeldPacket_roster : s.takeHeldPacket.roster = s.roster := by
  unfold State.takeHeldPacket
  split
  · rfl
  · simp only
    split
    · rfl
    · split <;> rfl

/-- Taking the packet that waits at the interface touches nothing but the buffers of the trees (R70). -/
theorem State.takeHeldPacket_eq :
    s.takeHeldPacket = { s with trees := s.takeHeldPacket.trees, heldPacket := s.takeHeldPacket.heldPacket } := by
  unfold State.takeHeldPacket
  split
  · rfl
  · simp only
    split
    · rfl
    · split <;> rfl

/-- A tree the waiting packet is not for, or that does not run, stays as it is. -/
theorem State.takeHeldPacket_tree
    (h : ∀ o ∈ s.heldPacket, o.tree = j → (s.tree j).phase = .down ∨ (s.tree j).phase = .faulted) :
    s.takeHeldPacket.tree j = s.tree j := by
  unfold State.takeHeldPacket
  split
  · rfl
  · rename_i o ho
    simp only
    split
    · rfl
    · rename_i hp
      split
      · have hne : j ≠ o.tree := fun hc => by
          subst hc
          exact hp (h o ho rfl)
        exact State.modTree_tree_ne _ _ hne
      · rfl

/-- A packet that waits for a tree that does not run is discarded (R70). -/
theorem State.takeHeldPacket_heldPacket {o : OfferedPacket} (ho : s.heldPacket = some o)
    (h : (s.tree o.tree).phase = .down ∨ (s.tree o.tree).phase = .faulted) : s.takeHeldPacket = { s with heldPacket := none } := by
  simp only [State.takeHeldPacket, ho, if_pos h]

/-- A tree as a stop leaves it (R6, R41, R91, R123). -/
def State.stoppedTree (s : State) (k : TreeId) : Tree :=
  { s.tree k with
    phase := .down, lead := 1, plans := (s.tree k).plans.filter fun r => r.round = s.round
    engine := { (s.tree k).engine with
      count := 0, deferred := false, windows := [], bookedProbe := none, chosen := none }
    light := { (s.tree k).light with
      suspicion := .clear, observations := [], cadence := 0, darkAnswer := none }
    framer := { buffer := [], frame := none }
    checker := { (s.tree k).checker with muted := true, marks := [], carried := none, carriedIdle := none } }

/-- The part after a stop, before the packet that waits at the interface is looked at. -/
def State.halted (s : State) (k : TreeId) : State :=
  { s with
    trees := s.trees.set k (s.stoppedTree k)
    roster := stoppedRoster k s.roster
    watches := s.watches.filter fun x => x.2.tree ≠ k || (Store.read (slotOf k x.2.tag) (stoppedRoster k s.roster)).isSome }

theorem State.stopTree_eq : s.stopTree k = (s.halted k).takeHeldPacket := rfl

theorem State.halted_tree : (s.halted k).tree k = s.stoppedTree k := Quad.get_set_self _ _ _

theorem State.halted_tree_ne (h : j ≠ k) : (s.halted k).tree j = s.tree j := Quad.get_set_ne _ _ h

theorem State.stopTree_tree : (s.stopTree k).tree k = s.stoppedTree k := by
  rw [State.stopTree_eq, State.takeHeldPacket_tree, State.halted_tree]
  intro o _ _
  exact .inl (by rw [State.halted_tree]; rfl)

theorem State.stopTree_tree_ne (h : j ≠ k) (ho : ∀ o ∈ s.heldPacket, o.tree ≠ j) : (s.stopTree k).tree j = s.tree j := by
  rw [State.stopTree_eq, State.takeHeldPacket_tree (s := s.halted k) fun o hm he => absurd he (ho o hm), State.halted_tree_ne h]

theorem State.stopTree_heldPacket {o : OfferedPacket} (ho : o ∈ s.heldPacket) (hk : o.tree = k) :
    (s.stopTree k).heldPacket = none := by
  subst hk
  have hdown : ((s.halted o.tree).tree o.tree).phase = .down := by
    rw [State.halted_tree]
    rfl
  rw [State.stopTree_eq, State.takeHeldPacket_heldPacket (s := s.halted o.tree) ho (.inl hdown)]

/-- A stop touches nothing but the trees, the roster, the watches and the packet that waits. -/
theorem State.stopTree_frame :
    s.stopTree k = { s with trees := (s.stopTree k).trees, roster := (s.stopTree k).roster, watches := (s.stopTree k).watches,
                            heldPacket := (s.stopTree k).heldPacket } := by
  rw [State.stopTree_eq, State.takeHeldPacket_eq]
  rfl

theorem State.stopTree_ports : (s.stopTree k).ports = s.ports := by rw [State.stopTree_frame]

theorem State.stopTree_watches : (s.stopTree k).watches = (s.halted k).watches := by
  rw [State.stopTree_eq, State.takeHeldPacket_eq]

theorem State.stopTree_entry (hw : Store.Wf s.roster) (h : tagOk tag = true) :
    (s.stopTree k).entry k tag = (s.entry k tag).bind Entry.stopped := by
  obtain ⟨htree, -, -⟩ := slot_of_slotOf (t := k) h
  have hread := read_stoppedRoster hw k (slotOf k tag)
  rw [if_pos htree] at hread
  rw [State.entry, State.stopTree, State.takeHeldPacket_roster]
  exact hread

theorem State.stopTree_entry_ne (hw : Store.Wf s.roster) (h : tagOk tag = true) (hj : j ≠ k) :
    (s.stopTree k).entry j tag = s.entry j tag := by
  obtain ⟨htree, -, -⟩ := slot_of_slotOf (t := j) h
  have hread := read_stoppedRoster hw k (slotOf j tag)
  rw [htree, if_neg fun hc => hj (Fin.ext hc)] at hread
  rw [State.entry, State.stopTree, State.takeHeldPacket_roster]
  exact hread

/-- A count over the entries of a stopped tree, slot by slot (R8). -/
theorem countStop_eq (hw : Store.Wf s.roster) (k : TreeId) (f : Entry → Option Entry → Bool) :
    countStop (s.treeEntries k) f =
      (List.range' 1 128).countP fun tag =>
        (s.entry k tag).any fun e => f e ((s.stopTree k).entry k tag) := by
  rw [countStop, State.treeEntries_eq hw, List.countP_filterMap]
  refine List.countP_congr fun tag htag => ?_
  have htag := List.mem_range'_1.1 htag
  rw [State.stopTree_entry hw (tagOk_eq_true_iff.2 (by omega))]
  cases s.entry k tag <;> simp

theorem Entry.state_ne_vacant (e : Entry) : e.state ≠ .vacant := by
  obtain ⟨_, _, _, _, _, _, body⟩ := e
  cases body <;> nofun

theorem stopTree_vacated (hw : Store.Wf s.roster) :
    countStop (s.treeEntries k) (fun _ after => after.isNone) =
      (List.range' 1 128).countP fun tag => (s.entry k tag).isSome && ((s.stopTree k).entry k tag).isNone := by
  rw [countStop_eq hw]
  refine List.countP_congr fun tag _ => ?_
  cases s.entry k tag <;> simp

theorem stopTree_silenced (hw : Store.Wf s.roster) :
    countStop (s.treeEntries k) (fun e after => e.state ≠ .silent && (after.map Entry.state) = some .silent) =
      (List.range' 1 128).countP fun tag =>
        s.slotState k tag ≠ .silent && s.slotState k tag ≠ .vacant && (s.stopTree k).slotState k tag = .silent := by
  rw [countStop_eq hw]
  refine List.countP_congr fun tag _ => ?_
  cases hs : s.entry k tag <;> cases ht : (s.stopTree k).entry k tag <;>
    simp [State.slotState, hs, ht, Entry.state_ne_vacant]

theorem stopTree_fenced (hw : Store.Wf s.roster) :
    countStop (s.treeEntries k) (fun _ after => (after.map Entry.state) = some .fenced) =
      (List.range' 1 128).countP fun tag => (s.stopTree k).slotState k tag = .fenced := by
  rw [countStop_eq hw]
  refine List.countP_congr fun tag htag => ?_
  have htag := List.mem_range'_1.1 htag
  have hentry := State.stopTree_entry (k := k) hw (tagOk_eq_true_iff.2 (by omega : 1 ≤ tag ∧ tag ≤ 128))
  cases hs : s.entry k tag <;> cases ht : (s.stopTree k).entry k tag <;> simp [State.slotState, ht]
  simp [hs, ht] at hentry

/-- A watch on another tree, or on a slot that is not made VACANT, stays (R159). -/
theorem State.stopTree_watch (hwatches : Store.Wf s.watches) {n : Nat} {w : Watch} (hread : Store.read n s.watches = some w) :
    Store.read n (s.stopTree k).watches = if w.tree = k ∧ (s.stopTree k).entry k w.tag = none then none else some w := by
  have hentry : (s.stopTree k).entry k w.tag = Store.read (slotOf k w.tag) (stoppedRoster k s.roster) := by
    rw [State.entry, State.stopTree_eq, State.takeHeldPacket_roster]
    rfl
  have hfilter := fun v => Store.read_filter hwatches
    (fun x => x.2.tree ≠ k || (Store.read (slotOf k x.2.tag) (stoppedRoster k s.roster)).isSome) n v
  rw [State.stopTree_watches, hentry, State.halted]
  split <;> rename_i h
  · refine Option.eq_none_iff_forall_ne_some.2 fun v hv => ?_
    obtain ⟨hv, hkept⟩ := (hfilter v).1 hv
    obtain rfl : w = v := Option.some.inj (hread.symm.trans hv)
    simp [h.1, h.2] at hkept
  · refine (hfilter w).2 ⟨hread, ?_⟩
    by_cases ht : w.tree = k
    · have hsome : (Store.read (slotOf k w.tag) (stoppedRoster k s.roster)).isSome = true :=
        Option.isSome_iff_ne_none.2 fun hn => h ⟨ht, hn⟩
      simp only [hsome, Bool.or_true]
    · simp [ht]

end

/-- The answer to a STOP TREE, with its counts (R8). -/
theorem exec_stopTree (hfree : PortFree s .line) (q : Byte) {k : TreeId} (hdown : (s.tree k).phase ≠ .down) :
    exec (.stopTree .line q k.val) s = .next ((s.stopTree k).reply .line q .done
      (.stopped
        (countStop (s.treeEntries k) fun _ after => after.isNone)
        (countStop (s.treeEntries k) fun e after => e.state ≠ .silent && (after.map Entry.state) = some .silent)
        (countStop (s.treeEntries k) fun _ after => (after.map Entry.state) = some .fenced)
        (s.hunting k)
        (min 65535 (s.tree k).framer.buffer.length))) := by
  have hexec : exec (.stopTree .line q k.val) s = .next (s.takeStopTree .line q k.val) :=
    exec_of_portFree (r := .stopTree k.val) rfl hfree rfl
  simp only [hexec, State.takeStopTree, treeOf_val, if_neg hdown]

theorem stopTree_refused (hfree : PortFree s .line) (q : Byte) (n : Nat) :
    (∀ k : TreeId, n = k.val → (s.tree k).phase = .down →
      exec (.stopTree .line q n) s = .next (s.reply .line q .wrongState .nothing)) ∧
    (4 ≤ n → exec (.stopTree .line q n) s = .next (s.reply .line q .badArgument .nothing)) := by
  have hexec : exec (.stopTree .line q n) s = .next (s.takeStopTree .line q n) :=
    exec_of_portFree (r := .stopTree n) rfl hfree rfl
  rw [hexec]
  refine ⟨fun k hk hdown => ?_, fun hn => ?_⟩
  · subst hk
    simp only [State.takeStopTree, treeOf_val, if_pos hdown]
    rfl
  · simp only [State.takeStopTree, treeOf_eq_none hn]
    rfl

/-- An answer adds to the answers of its port, and leaves the rest of every port. -/
theorem State.reply_ports_but_sent (p p' : Port) (q : Byte) (a : Status) (r : Results) :
    { (s.reply p q a r).port p' with sent := (s.port p').sent } = s.port p' := by
  by_cases h : p' = p
  · subst h
    rw [State.reply_port]
  · rw [State.reply_port_ne s q a r h]

/-- STOP TREE on the blocks of the tree and the rest of the part (R6, R41, R91, R123). -/
theorem stopTree_blocks (hfree : PortFree s .line) (q : Byte) {k : TreeId} (hdown : (s.tree k).phase ≠ .down) :
    ∃ t : State, exec (.stopTree .line q k.val) s = .next t ∧ t.tree k = s.stoppedTree k ∧
      (∀ j : TreeId, j ≠ k → (∀ o ∈ s.heldPacket, o.tree ≠ j) → t.tree j = s.tree j) ∧
      (∀ o ∈ s.heldPacket, o.tree = k → t.heldPacket = none) ∧
      t.round = s.round ∧ t.queue = s.queue ∧ t.journal = s.journal ∧ t.meters = s.meters ∧
      t.admissions = s.admissions ∧ t.openMode = s.openMode ∧ t.band = s.band ∧ t.routes = s.routes ∧
      t.upBuffer = s.upBuffer ∧
      ∀ p : Port, { t.port p with sent := (s.port p).sent } = s.port p := by
  refine ⟨_, exec_stopTree hfree q hdown, State.stopTree_tree, fun j hj ho => State.stopTree_tree_ne hj ho,
    fun o ho hk => State.stopTree_heldPacket ho hk, ?_⟩
  rw [State.stopTree_frame]
  exact ⟨rfl, rfl, rfl, rfl, rfl, rfl, rfl, rfl, rfl, fun p => State.reply_ports_but_sent _ p q _ _⟩

/-- STOP TREE on the roster, the watches and the counts of its answer (R7, R8, R159). -/
theorem stopTree_roster (hfree : PortFree s .line) (q : Byte) {k : TreeId} (hs : StoresCanonical s)
    (hdown : (s.tree k).phase ≠ .down) :
    ∃ t : State, exec (.stopTree .line q k.val) s = .next t ∧
      (∀ tag : Nat, tagOk tag = true → t.entry k tag = (s.entry k tag).bind Entry.stopped) ∧
      (∀ (j : TreeId) (tag : Nat), j ≠ k → tagOk tag = true → t.entry j tag = s.entry j tag) ∧
      (∀ (n : Nat) (w : Watch), Store.read n s.watches = some w → tagOk w.tag = true →
        Store.read n t.watches = if w.tree = k ∧ t.entry k w.tag = none then none else some w) ∧
      (t.port .line).sent = (s.port .line).sent ++
        [{ seq := q, status := .done
           results := .stopped
            ((List.range' 1 128).countP fun tag => (s.entry k tag).isSome && (t.entry k tag).isNone)
            ((List.range' 1 128).countP fun tag =>
              s.slotState k tag ≠ .silent && s.slotState k tag ≠ .vacant && t.slotState k tag = .silent)
            ((List.range' 1 128).countP fun tag => t.slotState k tag = .fenced)
            (s.hunting k)
            (min 65535 (s.tree k).framer.buffer.length) }] := by
  obtain ⟨hroster, -, hwatches, -⟩ := hs
  refine ⟨_, exec_stopTree hfree q hdown, fun tag => State.stopTree_entry hroster, fun j tag hj h => State.stopTree_entry_ne hroster h hj,
    fun n w hread _ => State.stopTree_watch hwatches hread, ?_⟩
  have hport : (s.stopTree k).port .line = s.port .line := State.port_of_ports State.stopTree_ports _
  rw [State.reply_port, hport, stopTree_vacated hroster, stopTree_silenced hroster, stopTree_fenced hroster]
  rfl

/-- Settles O11: the blocks of the tree and the refusals, then the roster with the watches and the counts. -/
theorem stopTreeEffect : Obligations.StopTreeEffect := by
  refine ⟨fun s q n hfree => ⟨fun k hk hdown => ?_, stopTree_refused hfree q n⟩, fun s q k hfree hs hdown => ?_⟩
  · subst hk
    exact stopTree_blocks hfree q hdown
  · obtain ⟨t, ht, hslots, hothers, hwatches, hsent⟩ := stopTree_roster hfree q hs hdown
    refine ⟨t, ht, fun tag e htag he => ?_, fun tag htag he => ?_, hothers, hwatches, s.hunting k, ?_, hsent⟩
    · rw [hslots tag htag, he]
      exact e.stopped_eq
    · rw [hslots tag htag, he]
      rfl
    · exact State.hunting_iff

end Sys2Proof.Machine
end

section
/-! PROOFS. Owed orders and orders that count as sent (O20), and the light supervisor's requests (O34). -/

namespace Sys2Proof.Machine

variable {s : State} {k j : TreeId} {tag tag' : Nat}

/-! ## Changing one entry -/

theorem slotOf_ne (h : tagOk tag = true) (h' : tagOk tag' = true) (hne : j ≠ k ∨ tag' ≠ tag) : slotOf j tag' ≠ slotOf k tag :=
  fun hc => by
    obtain ⟨rfl, rfl⟩ := slotOf_inj h' h hc
    exact hne.elim (absurd rfl) (absurd rfl)

/-- A change to the entry of a slot that leaves that entry leaves the part. -/
theorem State.modEntry_of_self (hw : Store.Wf s.roster) {f : Entry → Entry} (h : ∀ e, s.entry k tag = some e → f e = e) :
    s.modEntry k tag f = s := by
  have hroster : Store.modify (slotOf k tag) f s.roster = s.roster := by
    refine (List.map_congr_left fun x hx => ?_).trans (List.map_id _)
    obtain ⟨n, e⟩ := x
    by_cases hn : n = slotOf k tag
    · subst hn
      exact (if_pos rfl).trans (congrArg (Prod.mk _) (h e (Store.read_of_mem hw hx)))
    · exact if_neg hn
  rw [State.modEntry, hroster]

/-- A change to the entry of a slot puts the changed entry there. -/
theorem State.modEntry_of_entry (hw : Store.Wf s.roster) {e : Entry} (he : s.entry k tag = some e) (f : Entry → Entry) :
    s.modEntry k tag f = s.setEntry k tag (f e) := by
  have hroster : Store.modify (slotOf k tag) f s.roster = Store.modify (slotOf k tag) (fun _ => f e) s.roster := by
    refine Store.modify_congr fun x hx hn => ?_
    obtain ⟨n, e'⟩ := x
    subst hn
    have hread : s.entry k tag = some e' := Store.read_of_mem hw hx
    exact congrArg f (Option.some.inj (hread.symm.trans he))
  rw [State.modEntry, hroster, State.setEntry, Store.write_eq_modify hw he]

/-- One change to the entry of every slot of a list. -/
theorem State.foldl_modEntry_frame (f : Entry → Entry) (k : TreeId) (tags : List Nat) (s : State) :
    tags.foldl (fun s tag => s.modEntry k tag f) s =
      { s with roster := (tags.foldl (fun s tag => s.modEntry k tag f) s).roster } := by
  induction tags generalizing s with
  | nil => rfl
  | cons tag tags ih =>
    rw [List.foldl_cons, ih]
    rfl

/-- A change that does nothing the second time, made to the entry of every slot of a list, and read at a slot. -/
theorem State.foldl_modEntry_entry {f : Entry → Entry} (hf : ∀ e, f (f e) = f e) (tags : List Nat)
    (htags : ∀ tag ∈ tags, tagOk tag = true) (h : tagOk tag = true) (s : State) :
    (tags.foldl (fun s tag => s.modEntry k tag f) s).entry j tag =
      if j = k ∧ tag ∈ tags then (s.entry j tag).map f else s.entry j tag := by
  induction tags generalizing s with
  | nil => simp
  | cons a tags ih =>
    obtain ⟨ha, htags⟩ := List.forall_mem_cons.1 htags
    rw [List.foldl_cons, ih htags]
    by_cases hslot : j = k ∧ tag = a
    · obtain ⟨rfl, rfl⟩ := hslot
      rw [State.modEntry_entry]
      by_cases hm : tag ∈ tags
      · rw [if_pos ⟨rfl, hm⟩, if_pos ⟨rfl, List.mem_cons_self⟩, Option.map_map]
        exact congrArg (fun g => Option.map g _) (funext hf)
      · rw [if_neg fun hc => hm hc.2, if_pos ⟨rfl, List.mem_cons_self⟩]
    · have hne : j ≠ k ∨ tag ≠ a := not_and_or.1 hslot
      have hmem : (j = k ∧ tag ∈ a :: tags) ↔ (j = k ∧ tag ∈ tags) := by
        rw [List.mem_cons]
        tauto
      rw [State.modEntry_entry_ne _ _ (slotOf_ne ha h hne)]
      simp only [hmem]

/-! ## Owed orders, and orders that count as sent (R65, R68) -/

/-- What making an order owed adds and removes: HUSH and WAKE, FENCE and RELEASE remove each other, DROP all others (R65). -/
theorem Owed.has_add {o : Owed} (h : o.drop = false) (k j : OrderKind) :
    (o.add k).has j =
      if j = k then true
      else if k = .drop ∨
        (k, j) ∈ [(OrderKind.hush, OrderKind.wake), (.wake, .hush), (.fence, .release), (.release, .fence)] then false
      else o.has j := by
  cases k <;> cases j <;> simp [Owed.add, Owed.has, Owed.none, h]

theorem owedAdd_spec (o : Owed) (k j : OrderKind) :
    (o.drop = true → o.add k = o) ∧
    (o.drop = false →
      (o.add k).has k = true ∧
      (k = .drop → j ≠ .drop → (o.add k).has j = false) ∧
      ((k, j) ∈ [(OrderKind.hush, OrderKind.wake), (.wake, .hush), (.fence, .release), (.release, .fence)] →
        (o.add k).has j = false) ∧
      (k ≠ .drop → j ≠ k →
        (k, j) ∉ [(OrderKind.hush, OrderKind.wake), (.wake, .hush), (.fence, .release), (.release, .fence)] →
        (o.add k).has j = o.has j)) := by
  refine ⟨fun h => Owed.add_of_drop h k, fun h => ⟨?_, fun hk hj => ?_, fun hm => ?_, fun hk hj hm => ?_⟩⟩
  · rw [Owed.has_add h, if_pos rfl]
  · rw [Owed.has_add h, if_neg (hk ▸ hj), if_pos (.inl hk)]
  · have hne : j ≠ k := fun hc => by
      subst hc
      cases j <;> simp at hm
    rw [Owed.has_add h, if_neg hne, if_pos (.inr hm)]
  · rw [Owed.has_add h, if_neg hj, if_neg (not_or.2 ⟨hk, hm⟩)]

/-- Every order but the two lists and a DROP to a LEAVING entry changes the owed set of its one slot. -/
theorem sendOrder_one {o : OrderPlace} {e : Entry} (he : s.entry k tag = some e)
    (ho : ∃ e0 : Nat, ∃ x : Serial, o = .fence x tag ∨ o = .release tag ∨ o = .assign x tag e0 ∨ o = .probe x tag ∨
      o = .adjust tag e0 ∨ e.state ≠ .leaving ∧ o = .drop x tag) :
    ∃ f : Entry → Entry, s.sendOrder k o = s.modEntry k tag f := by
  obtain ⟨e0, x, rfl | rfl | rfl | rfl | rfl | ⟨hl, rfl⟩⟩ := ho
  · exact ⟨_, rfl⟩
  · exact ⟨_, rfl⟩
  · exact ⟨_, rfl⟩
  · exact ⟨_, rfl⟩
  · exact ⟨_, rfl⟩
  · exact ⟨_, if_neg (by simpa only [State.slotState, he] using hl)⟩

theorem sendOrder_drop {e : Entry} (he : s.entry k tag = some e) (x : Serial) :
    (e.state ≠ .leaving →
      (s.sendOrder k (.drop x tag)).entry k tag = some { e with owed := { e.owed with drop := false } }) ∧
    (e.state = .leaving → s.sendOrder k (.drop x tag) = s.vacate k tag) := by
  have hstate : s.slotState k tag = e.state := by simp only [State.slotState, he]
  refine ⟨fun hl => ?_, fun hl => ?_⟩
  · rw [State.sendOrder, hstate, if_neg hl, State.modEntry_entry, he]
    rfl
  · rw [State.sendOrder, hstate, if_pos hl]

/-- A sent WAKE leaves the owed set and clears the hushed mark in the states that have one (R68). -/
theorem Entry.sentWake_spec (e : Entry) :
    let after := fun (b : Body) => (e.sent .wake).setHushed false = { e with owed := { e.owed with wake := false }, body := b }
    (∀ f : Timed, e.body = .timed f → after (.timed { f with hushed := false })) ∧
    (∀ f : Active, e.body = .active f → after (.active { f with hushed := false })) ∧
    (∀ f : Silent, e.body = .silent f → after (.silent { f with hushed := false })) ∧
    (∀ f : Fenced, e.body = .fenced f → after (.fenced { f with hushed := false })) ∧
    (e.state = .heard ∨ e.state = .leaving → after e.body) := by
  obtain ⟨serial, occupied, contract, booked, capped, owed, body⟩ := e
  cases body <;> simp [Entry.setHushed, Entry.sent, Owed.remove, Entry.state]

theorem Entry.sentWake_twice (e : Entry) :
    (((e.sent .wake).setHushed false).sent .wake).setHushed false = (e.sent .wake).setHushed false := by
  obtain ⟨serial, occupied, contract, booked, capped, owed, body⟩ := e
  cases body <;> rfl

theorem sendLists_spec (s : State) (k : TreeId) (tags : List Nat) (htags : ∀ tag ∈ tags, tagOk tag = true) :
    let hush := s.sendOrder k (.hush tags)
    let wake := s.sendOrder k (.wake tags)
    hush = { s with roster := hush.roster } ∧ wake = { s with roster := wake.roster } ∧
    ∀ (j : TreeId) (tag : Nat), tagOk tag = true →
      (j ≠ k ∨ tag ∉ tags ∨ s.entry j tag = none →
        hush.entry j tag = s.entry j tag ∧ wake.entry j tag = s.entry j tag) ∧
      ∀ e : Entry, j = k → tag ∈ tags → s.entry j tag = some e →
        let woken := fun (b : Body) => wake.entry j tag = some { e with owed := { e.owed with wake := false }, body := b }
        hush.entry j tag = some { e with owed := { e.owed with hush := false } } ∧
        (∀ f : Timed, e.body = .timed f → woken (.timed { f with hushed := false })) ∧
        (∀ f : Active, e.body = .active f → woken (.active { f with hushed := false })) ∧
        (∀ f : Silent, e.body = .silent f → woken (.silent { f with hushed := false })) ∧
        (∀ f : Fenced, e.body = .fenced f → woken (.fenced { f with hushed := false })) ∧
        (e.state = .heard ∨ e.state = .leaving → woken e.body) := by
  refine ⟨State.foldl_modEntry_frame _ _ _ _, State.foldl_modEntry_frame _ _ _ _, fun j tag h => ?_⟩
  have hhush := State.foldl_modEntry_entry (k := k) (j := j) (f := Entry.sent .hush) (fun _ => rfl) tags htags h s
  have hwake := State.foldl_modEntry_entry (k := k) (j := j) (f := fun e => (e.sent .wake).setHushed false)
    Entry.sentWake_twice tags htags h s
  simp only [State.sendOrder, hhush, hwake]
  refine ⟨fun hno => ?_, fun e hj hm he => ?_⟩
  · by_cases hslot : j = k ∧ tag ∈ tags
    · have hvacant : s.entry j tag = none := by tauto
      simp only [hvacant, Option.map_none, ite_self, and_self]
    · simp only [if_neg hslot, and_self]
  · obtain ⟨ht, ha, hs, hf, hn⟩ := e.sentWake_spec
    simp only [if_pos (And.intro hj hm), he, Option.map_some]
    exact ⟨rfl, fun f h => congrArg some (ht f h), fun f h => congrArg some (ha f h), fun f h => congrArg some (hs f h),
      fun f h => congrArg some (hf f h), fun h => congrArg some (hn h)⟩

/-- A slot made VACANT loses its entry and its watches (R32, R159). -/
theorem vacate_spec (h : tagOk tag = true) (hs : StoresCanonical s) :
    let t := s.vacate k tag
    t = { s with roster := t.roster, watches := t.watches } ∧ t.entry k tag = none ∧
    (∀ (j : TreeId) (tag' : Nat), tagOk tag' = true → j ≠ k ∨ tag' ≠ tag → t.entry j tag' = s.entry j tag') ∧
    ∀ (n : Nat) (w : Watch),
      Store.read n t.watches = some w ↔ Store.read n s.watches = some w ∧ ¬ (w.tree = k ∧ w.tag = tag) := by
  obtain ⟨-, -, hwatches, -⟩ := hs
  refine ⟨rfl, s.vacate_entry k tag, fun j tag' h' hne => s.vacate_entry_ne (slotOf_ne h h' hne), fun n w => ?_⟩
  rw [State.vacate, Store.read_filter hwatches]
  simp only [Bool.not_eq_true', Bool.and_eq_false_iff, decide_eq_false_iff_not, not_and_or]

/-- Settles O20: what is owed, each order sent to one entry, a slot made VACANT, and the two lists. -/
theorem ordersOwedAndSent : Obligations.OrdersOwedAndSent := by
  refine ⟨owedAdd_spec, fun s k tag e h he => ⟨fun o t ht ho => ?_, fun x => ?_, ?_, fun x d => ?_, fun x => ?_, fun d => ?_,
    sendOrder_drop he⟩, fun s k tag h hs => vacate_spec h hs, sendLists_spec⟩
  · obtain ⟨f, hf⟩ := sendOrder_one he ho
    rw [ht, hf]
    exact ⟨rfl, fun j tag' h' hne => s.modEntry_entry_ne f (slotOf_ne h h' hne)⟩
  all_goals
    rw [State.sendOrder, State.modEntry_entry, he]
    rfl

/-! ## SET LIGHT LIMIT, SET CONFIRM and ABANDON (R124, R125, R142) -/

section
variable (hfree : PortFree s .supervisor) (q : Byte) (n : Nat)
include hfree

theorem setLightLimit_spec :
    (∀ (k : TreeId) (value scale : Nat), n = k.val → value ≤ 255 → scale ∈ [1, 4, 16, 64] →
      exec (.setLightLimit .supervisor q n value scale) s =
        .next ((s.setTree k { s.tree k with light := { (s.tree k).light with
            limitValue := value, limitScale := scale } }).reply .supervisor q .done
          (.effectiveLimit (min 4095 ((s.tree k).light.baseline + value * scale))))) ∧
    (∀ value scale : Nat, 4 ≤ n ∨ 255 < value ∨ scale ∉ [1, 4, 16, 64] →
      exec (.setLightLimit .supervisor q n value scale) s = .next (s.reply .supervisor q .badArgument .nothing)) := by
  have hexec : ∀ value scale,
      exec (.setLightLimit .supervisor q n value scale) s = .next (s.takeSetLightLimit .supervisor q n value scale) :=
    fun value scale => exec_of_portFree (r := .setLightLimit n value scale) rfl hfree rfl
  have hscale : ∀ x : Nat, x ∈ [1, 4, 16, 64] ↔ x = 1 ∨ x = 4 ∨ x = 16 ∨ x = 64 := by simp
  simp only [hexec, hscale]
  refine ⟨fun k value scale hk hv hs => ?_, fun value scale h => ?_⟩
  · subst hk
    have hok : ¬ (255 < value ∨ ¬ (scale = 1 ∨ scale = 4 ∨ scale = 16 ∨ scale = 64)) := by omega
    simp only [State.takeSetLightLimit, treeOf_val, if_neg hok, State.modLight_tree]
    rfl
  · by_cases hn : 4 ≤ n
    · simp only [State.takeSetLightLimit, treeOf_eq_none hn]
      rfl
    · have hbad : 255 < value ∨ ¬ (scale = 1 ∨ scale = 4 ∨ scale = 16 ∨ scale = 64) := by omega
      cases ht : treeOf n <;> simp only [State.takeSetLightLimit, ht, if_pos hbad] <;> rfl

theorem setConfirm_spec :
    (∀ (k : TreeId) (m v mo : Nat), n = k.val → 1 ≤ m → m ≤ 8 → 1 ≤ v → v ≤ 4 → 1 ≤ mo → mo ≤ 8 →
      exec (.setConfirm .supervisor q n m v mo) s =
        .next ((s.setTree k { s.tree k with light := { (s.tree k).light with m := m, v := v, mOver := mo } }).reply
          .supervisor q .done .nothing)) ∧
    (∀ m v mo : Nat, 4 ≤ n ∨ m = 0 ∨ 8 < m ∨ v = 0 ∨ 4 < v ∨ mo = 0 ∨ 8 < mo →
      exec (.setConfirm .supervisor q n m v mo) s = .next (s.reply .supervisor q .badArgument .nothing)) := by
  have hexec : ∀ m v mo, exec (.setConfirm .supervisor q n m v mo) s = .next (s.takeSetConfirm .supervisor q n m v mo) :=
    fun m v mo => exec_of_portFree (r := .setConfirm n m v mo) rfl hfree rfl
  simp only [hexec]
  refine ⟨fun k m v mo hk _ _ _ _ _ _ => ?_, fun m v mo h => ?_⟩
  · subst hk
    have hok : ¬ (m < 1 ∨ 8 < m ∨ v < 1 ∨ 4 < v ∨ mo < 1 ∨ 8 < mo) := by omega
    simp only [State.takeSetConfirm, treeOf_val, if_neg hok]
    rfl
  · by_cases hn : 4 ≤ n
    · simp only [State.takeSetConfirm, treeOf_eq_none hn]
      rfl
    · have hbad : m < 1 ∨ 8 < m ∨ v < 1 ∨ 4 < v ∨ mo < 1 ∨ 8 < mo := by omega
      cases ht : treeOf n <;> simp only [State.takeSetConfirm, ht, if_pos hbad] <;> rfl

end

theorem State.endHunt_eq (reason : HuntReason) (c : Option Nat) :
    s.endHunt k reason c = huntOver s k reason.after reason c := rfl

/-- An entry without the trial mark is not the supervisor's to release (R30). -/
theorem Entry.releaseFence_of_not_trial {e : Entry} (h : e.trial = false) : e.releaseFence true = none := by
  obtain ⟨serial, occupied, contract, booked, capped, owed, body⟩ := e
  cases body with
  | fenced f =>
    have hne : f.trial ≠ true := by
      rw [show f.trial = false from h]
      decide
    exact if_neg hne
  | heard f => rfl
  | timed f => rfl
  | active f => rfl
  | silent f => rfl
  | leaving d => rfl

theorem Entry.releaseFence_eq {e : Entry} {f : Fenced} {trial : Bool} (hf : e.body = .fenced f) (ht : f.trial = trial) :
    e.releaseFence trial = some { e with
      owed := if e.owed.drop then e.owed else { e.owed with release := true, fence := false }
      body := .active { e := f.e, missCount := 0, need := f.need, credit := f.credit
                        lastGranted := f.lastGranted, history := [], hushed := f.hushed } } := by
  simp only [Entry.releaseFence, hf, if_pos ht]
  rfl

/-- The supervisor's release of a candidate that is not trial-fenced, or whose slot is VACANT, changes nothing. -/
theorem State.releaseCandidate_of_not_trial (hw : Store.Wf s.roster) {c : Nat}
    (h : ∀ e, s.entry k c = some e → e.trial = false) : s.releaseCandidate k c = s :=
  State.modEntry_of_self hw fun e he => by rw [Entry.releaseFence_of_not_trial (h e he), Option.getD_none]

theorem State.releaseCandidate_of_trial (hw : Store.Wf s.roster) {c : Nat} {e : Entry} {f : Fenced} (he : s.entry k c = some e)
    (hf : e.body = .fenced f) (ht : f.trial = true) :
    s.releaseCandidate k c = s.setEntry k c { e with
      owed := if e.owed.drop then e.owed else { e.owed with release := true, fence := false }
      body := .active { e := f.e, missCount := 0, need := f.need, credit := f.credit
                        lastGranted := f.lastGranted, history := [], hushed := f.hushed } } := by
  rw [State.releaseCandidate, State.modEntry_of_entry hw he, Entry.releaseFence_eq hf ht, Option.getD_some]

theorem State.abandonHunt_of_candidate {h : Hunt} (hs : (s.tree k).light.suspicion = .hunt h) {c : Nat} {quiet : List Nat}
    (hp : h.phase = .trial c ∨ h.phase = .allQuiet c quiet) :
    s.abandonHunt k = (s.releaseCandidate k c).endHunt k .abandoned (some c) := by
  obtain hp | hp := hp <;> simp only [State.abandonHunt, hs, hp]

/-- Settles O34, request by request; ABANDON by the suspicion state and the hunt's phase. -/
theorem lightRequests : Obligations.LightRequests := by
  refine ⟨fun s q n hfree => ?_, fun s q n hfree => ?_⟩
  · obtain ⟨hlimit, hlimit'⟩ := setLightLimit_spec hfree q n
    obtain ⟨hconfirm, hconfirm'⟩ := setConfirm_spec hfree q n
    exact ⟨hlimit, hlimit', hconfirm, hconfirm'⟩
  have hexec : exec (.abandon .supervisor q n) s = .next (s.takeAbandon .supervisor q n) :=
    exec_of_portFree (r := .abandon n) rfl hfree rfl
  rw [hexec]
  refine ⟨fun k hk => ?_, fun hn => ?_⟩
  · subst hk
    simp only [State.takeAbandon, treeOf_val]
    refine ⟨fun hs => ?_, fun hs => ?_, fun hs => ?_, fun h hs => ⟨fun group hp => ?_, fun c quiet hp hcanon _ => ?_⟩⟩
    · simp only [State.abandonHunt, hs, Suspicion.name]
    · simp only [State.abandonHunt, hs, Suspicion.name]
      rfl
    · simp only [State.abandonHunt, hs, Suspicion.name]
      rfl
    · simp only [State.abandonHunt, hs, hp, Suspicion.name, State.endHunt_eq]
      rfl
    · obtain ⟨hw, -⟩ := hcanon
      simp only [State.abandonHunt_of_candidate hs hp, hs, Suspicion.name, State.endHunt_eq]
      refine ⟨fun e he ht => ?_, fun he => ?_, fun e f he hf ht => ?_⟩
      · rw [State.releaseCandidate_of_not_trial hw fun e' he' => Option.some.inj (he.symm.trans he') ▸ ht]
        rfl
      · rw [State.releaseCandidate_of_not_trial hw fun e' he' => nomatch he.symm.trans he']
        rfl
      · rw [State.releaseCandidate_of_trial hw he hf ht]
        rfl
  · simp only [State.takeAbandon, treeOf_eq_none hn]
    rfl

end Sys2Proof.Machine
end

section
/-! PROOFS. The journal (O49), the watches (O50), and the bytes that fire them (O47). -/

namespace Sys2Proof.Machine

variable {s : State} {k : TreeId} {tag : Nat}

/-! ## Notices touch the ports alone -/

theorem State.raiseAt_frame (p : Port) (t : Option TreeId) (d : Detail) :
    s.raiseAt p t d = { s with ports := (s.raiseAt p t d).ports } := rfl

theorem State.journalRose_frame (n : Nat) : s.journalRose n = { s with ports := (s.journalRose n).ports } := by
  obtain h | ⟨-, -, h⟩ := s.journalRose_cases n <;> rw [h]
  rfl

theorem State.writeRecord_frame (r : Record) :
    s.writeRecord r = { s with
      journal := { s.journal with records := s.journal.records ++ [r] }, ports := (s.writeRecord r).ports } := by
  rw [State.writeRecord, State.journalRose_frame]
  rfl

/-! ## The journal (R161 to R170) -/

section
variable (hfree : PortFree s .accounting) (q : Byte) (n : Nat)
include hfree

theorem takeRecords_spec :
    (1 ≤ n → n ≤ 16 →
      exec (.takeRecords .accounting q n) s =
        .next ({ s with journal := { s.journal with records := s.journal.records.drop n } }.reply .accounting q .done
          (.records (s.journal.records.take n) (s.journal.records.drop n).length s.journal.booked))) ∧
    (n = 0 ∨ 16 < n → exec (.takeRecords .accounting q n) s = .next (s.reply .accounting q .badArgument .nothing)) := by
  have hexec : exec (.takeRecords .accounting q n) s = .next (s.takeTakeRecords .accounting q n) :=
    exec_of_portFree (r := .takeRecords n) rfl hfree rfl
  rw [hexec]
  refine ⟨fun hlo hhi => ?_, fun hn => ?_⟩
  · rw [State.takeTakeRecords, if_neg (by omega)]
  · rw [State.takeTakeRecords, if_pos (by omega)]
    rfl

theorem setJournalMark_spec :
    (n ≤ 1984 →
      exec (.setJournalMark .accounting q n) s =
        .next ({ s with journal := { s.journal with mark := n } }.reply .accounting q .done
          (.heldCount s.journal.records.length))) ∧
    (1984 < n → exec (.setJournalMark .accounting q n) s = .next (s.reply .accounting q .badArgument .nothing)) := by
  have hexec : exec (.setJournalMark .accounting q n) s = .next (s.takeSetJournalMark .accounting q n) :=
    exec_of_portFree (r := .setJournalMark n) rfl hfree rfl
  rw [hexec]
  refine ⟨fun hn => ?_, fun hn => ?_⟩
  · have hmark : ¬ journalCeiling < n := Nat.not_lt.2 hn
    rw [State.takeSetJournalMark, if_neg hmark]
  · have hmark : journalCeiling < n := hn
    rw [State.takeSetJournalMark, if_pos hmark]
    rfl

end

section
variable {m : Meters} {e : Entry}

/-- The part after an interval close wrote the record of a slot (R154, R165). -/
def State.slotClosed (s : State) (k : TreeId) (tag : Nat) (e : Entry) (m : Meters) : State :=
  { s with
    journal := { s.journal with records := s.journal.records ++ [s.recordOf false k tag e m] }
    ports := (s.writeRecord (s.recordOf false k tag e m)).ports
    meters := Store.write (slotOf k tag) (zeroMeters s.round false) s.meters
    watches := (s.rearm k tag).watches
    roster := Store.modify (slotOf k tag) (fun e => { e with capped := false }) s.roster }

theorem State.closeSlot_of_opened (hm : s.meterOf k tag = some m) (he : s.entry k tag = some e) (ho : m.openedCut = s.round)
    (tally : CloseTally) : s.closeSlot tally k tag = (s, tally) := by
  simp only [State.closeSlot, hm, he, if_pos ho]

theorem State.closeSlot_of_room (hm : s.meterOf k tag = some m) (he : s.entry k tag = some e) (ho : m.openedCut ≠ s.round)
    (hl : s.journal.records.length + s.journal.booked < 1984) (tally : CloseTally) :
    s.closeSlot tally k tag = (s.slotClosed k tag e m, { tally with written := tally.written + 1 }) := by
  have hroom : s.journal.records.length + s.journal.booked < journalCeiling := hl
  simp only [State.closeSlot, hm, he, if_neg ho, if_pos hroom]
  rw [State.writeRecord_frame]
  rfl

theorem State.closeSlot_of_full (hm : s.meterOf k tag = some m) (he : s.entry k tag = some e) (ho : m.openedCut ≠ s.round)
    (hl : 1984 ≤ s.journal.records.length + s.journal.booked) (tally : CloseTally) :
    s.closeSlot tally k tag = (s, { tally with carried := tally.carried + 1 }) := by
  have hfull : ¬ s.journal.records.length + s.journal.booked < journalCeiling := Nat.not_lt.2 hl
  simp only [State.closeSlot, hm, he, if_neg ho, if_neg hfull]

theorem State.slotClosed_meterOf : (s.slotClosed k tag e m).meterOf k tag = some (zeroMeters s.round false) :=
  Store.read_write_self _ _ _

theorem State.slotClosed_entry (he : s.entry k tag = some e) :
    (s.slotClosed k tag e m).entry k tag = some { e with capped := false } := by
  rw [State.entry, State.slotClosed, Store.read_modify_self]
  exact congrArg _ he

/-- Every watch on a slot whose meters start again is ARMED (R154). -/
theorem State.rearm_watches : ∀ x ∈ (s.rearm k tag).watches, x.2.tree = k → x.2.tag = tag → x.2.fired = false := by
  intro x hx ht htag
  obtain ⟨y, -, rfl⟩ := List.mem_map.1 hx
  by_cases h : y.2.tree = k ∧ y.2.tag = tag
  · rw [if_pos h]
  · rw [if_neg h] at ht htag
    exact absurd ⟨ht, htag⟩ h

end

/-- Settles O49: the two requests, then one slot at an interval close by its meters and the room left. -/
theorem journalKept : Obligations.JournalKept := by
  refine ⟨fun s q n hfree => ?_, fun s tally k tag m e hm he => ⟨fun ho => State.closeSlot_of_opened hm he ho tally,
    fun ho hl => ?_, fun ho hl => State.closeSlot_of_full hm he ho hl tally⟩⟩
  · obtain ⟨htake, htake'⟩ := takeRecords_spec hfree q n
    obtain ⟨hmark, hmark'⟩ := setJournalMark_spec hfree q n
    exact ⟨htake, htake', hmark, hmark'⟩
  · exact ⟨_, State.closeSlot_of_room hm he ho hl tally, rfl, State.slotClosed_meterOf, State.slotClosed_entry he,
      State.rearm_watches, rfl, rfl⟩

/-! ## Watches (R157 to R159) -/

/-- What a firing watch does (R158): it is FIRED, WATCH_FIRED is raised, and a THROTTLE caps the slot. -/
theorem State.fireWatch_eq (n : Nat) (w : Watch) :
    s.fireWatch n w = { s.raise w.tree (.watchFired n w.tree w.tag (s.serialOf w.tree w.tag)
          (w.selectedSum (s.meterOf w.tree w.tag)) w.threshold w.throttle) with
      watches := Store.write n { w with fired := true } s.watches
      roster := s.roster.map fun x =>
        if x.1 = slotOf w.tree w.tag ∧ w.throttle = true then (x.1, { x.2 with capped := true }) else x
      meters := s.meters.map fun x =>
        if x.1 = slotOf w.tree w.tag ∧ w.throttle = true then (x.1, { x.2 with cappedDuring := true }) else x } := by
  rw [State.fireWatch]
  split
  · rename_i h
    simp only [h, and_true]
    rfl
  · rename_i h
    simp only [h, Bool.false_eq_true, and_false, if_false, List.map_id']
    rfl

section
variable {n a b c th : Nat} {dir : Direction} {band : Option BandId} {throttle : Bool}

theorem directionOf_of_mem (h : (a, dir) ∈ [(1, Direction.up), (2, .down), (3, .both)]) : directionOf a = some dir := by
  simp only [List.mem_cons, Prod.mk.injEq, List.not_mem_nil, or_false] at h
  obtain ⟨rfl, rfl⟩ | ⟨rfl, rfl⟩ | ⟨rfl, rfl⟩ := h <;> rfl

theorem watchBandOf_of (h : b = 255 ∧ band = none ∨ ∃ i : BandId, b = i.val ∧ band = some i) : watchBandOf b = some band :=
  admitTree_of h

theorem throttleOf_of_mem (h : (c, throttle) ∈ [(1, false), (2, true)]) : throttleOf c = some throttle := by
  simp only [List.mem_cons, Prod.mk.injEq, List.not_mem_nil, or_false] at h
  obtain ⟨rfl, rfl⟩ | ⟨rfl, rfl⟩ := h <;> rfl

theorem directionOf_eq_none (h : a = 0 ∨ 3 < a) : directionOf a = none := by
  unfold directionOf
  split <;> first | omega | rfl

theorem throttleOf_eq_none (h : c = 0 ∨ 2 < c) : throttleOf c = none := by
  unfold throttleOf
  split <;> first | omega | rfl

theorem watchOf_eq_none {tree : Nat}
    (h : 8 ≤ n ∨ 4 ≤ tree ∨ tag = 0 ∨ 128 < tag ∨ a = 0 ∨ 3 < a ∨ (4 ≤ b ∧ b ≠ 255) ∨ th = 0 ∨ 281474976710655 < th ∨
      c = 0 ∨ 2 < c) : watchOf n tree tag a b th c = none := by
  unfold watchOf
  split
  · rename_i t d bd thr ht hd hb hc
    have htree : ¬ 4 ≤ tree := fun hn => nomatch (treeOf_eq_none hn).symm.trans ht
    have hdir : ¬ (a = 0 ∨ 3 < a) := fun hn => nomatch (directionOf_eq_none hn).symm.trans hd
    have hband : ¬ (4 ≤ b ∧ b ≠ 255) := fun hn => nomatch (admitTree_eq_none hn.1 hn.2).symm.trans hb
    have hthrottle : ¬ (c = 0 ∨ 2 < c) := fun hn => nomatch (throttleOf_eq_none hn).symm.trans hc
    refine if_neg fun hok => ?_
    rw [tagOk_eq_true_iff, maxBytes] at hok
    omega
  · rfl

theorem watchOf_of (hn : n < 8) (htag : tagOk tag = true) (hlo : 1 ≤ th) (hhi : th ≤ 281474976710655)
    (ha : (a, dir) ∈ [(1, Direction.up), (2, .down), (3, .both)])
    (hb : b = 255 ∧ band = none ∨ ∃ i : BandId, b = i.val ∧ band = some i) (hc : (c, throttle) ∈ [(1, false), (2, true)]) :
    watchOf n k.val tag a b th c = some { tree := k, tag := tag, direction := dir, band := band, threshold := th,
                                          throttle := throttle, fired := false } := by
  have hok : n < 8 ∧ tagOk tag = true ∧ 1 ≤ th ∧ th ≤ maxBytes := ⟨hn, htag, hlo, hhi⟩
  simp only [watchOf, treeOf_val, directionOf_of_mem ha, watchBandOf_of hb, throttleOf_of_mem hc, if_pos hok]

end

/-- SET WATCH on a slot that is not VACANT, with its fields in range (R157): armed, and tested at once. -/
theorem takeSetWatch_armed {n tree a b th c : Nat} {w : Watch} {e : Entry} (hw : watchOf n tree tag a b th c = some w)
    (hfired : w.fired = false) (he : s.entry w.tree w.tag = some e) (p : Port) (q : Byte) :
    let armed := { s with watches := Store.write n w s.watches }
    let sum := w.selectedSum (s.meterOf w.tree w.tag)
    (sum < w.threshold → s.takeSetWatch p q n tree tag a b th c = armed.reply p q .done (.watchSet sum false)) ∧
    (w.threshold ≤ sum →
      s.takeSetWatch p q n tree tag a b th c = (armed.fireWatch n w).reply p q .done (.watchSet sum true)) := by
  refine ⟨fun hsum => ?_, fun hsum => ?_⟩
  · have hquiet : ¬ (w.fired = false ∧ w.threshold ≤ w.selectedSum (s.meterOf w.tree w.tag)) := fun h =>
      absurd h.2 (Nat.not_le.2 hsum)
    have htest : ({ s with watches := Store.write n w s.watches } : State).testWatch n =
        { s with watches := Store.write n w s.watches } := by
      simp only [State.testWatch, Store.read_write_self]
      exact if_neg hquiet
    simp only [State.takeSetWatch, hw, he, htest, Store.read_write_self, hfired]
  · have htest : ({ s with watches := Store.write n w s.watches } : State).testWatch n =
        ({ s with watches := Store.write n w s.watches } : State).fireWatch n w := by
      simp only [State.testWatch, Store.read_write_self]
      exact if_pos ⟨hfired, hsum⟩
    have hread : Store.read n (({ s with watches := Store.write n w s.watches } : State).fireWatch n w).watches =
        some { w with fired := true } := by
      rw [State.fireWatch_eq]
      exact Store.read_write_self _ _ _
    simp only [State.takeSetWatch, hw, he, htest, hread]

theorem takeClearWatch_spec (hfree : PortFree s .accounting) (q : Byte) (n : Nat) :
    (n < 8 → exec (.clearWatch .accounting q n) s =
      .next ({ s with watches := Store.erase n s.watches }.reply .accounting q .done .nothing)) ∧
    (8 ≤ n → exec (.clearWatch .accounting q n) s = .next (s.reply .accounting q .badArgument .nothing)) := by
  have hexec : exec (.clearWatch .accounting q n) s = .next (s.takeClearWatch .accounting q n) :=
    exec_of_portFree (r := .clearWatch n) rfl hfree rfl
  rw [hexec]
  refine ⟨fun hn => ?_, fun hn => ?_⟩
  · rw [State.takeClearWatch, if_pos hn]
  · rw [State.takeClearWatch, if_neg (Nat.not_lt.2 hn)]
    rfl

/-- Settles O50: SET WATCH by its arguments, its slot and its sum; CLEAR WATCH by its number. -/
theorem watchesSetAndCleared : Obligations.WatchesSetAndCleared := by
  intro s q n hfree
  have hexec : ∀ tree tag a b th c,
      exec (.setWatch .accounting q n tree tag a b th c) s = .next (s.takeSetWatch .accounting q n tree tag a b th c) :=
    fun tree tag a b th c => exec_of_portFree (r := .setWatch n tree tag a b th c) rfl hfree rfl
  refine ⟨fun k tag dir band th throttle a b c hn htag hlo hhi ha hb hc => ?_, fun tree tag a b th c h => ?_,
    takeClearWatch_spec hfree q n⟩
  · have hw := watchOf_of (k := k) hn htag hlo hhi ha hb hc
    refine ⟨fun he => ?_, fun e he => ?_⟩
    · rw [hexec]
      simp only [State.takeSetWatch, hw, he]
      rfl
    · obtain ⟨hquiet, hfire⟩ := takeSetWatch_armed hw rfl he .accounting q
      refine ⟨fun hsum => ?_, fun hsum => ?_⟩
      · rw [hexec, hquiet hsum]
      · have hserial : s.serialOf k tag = e.serial := by simp only [State.serialOf, he]
        rw [hexec, hfire hsum, State.fireWatch_eq, Store.write_write, ← hserial]
        rfl
  · rw [hexec]
    simp only [State.takeSetWatch, watchOf_eq_none h]
    rfl

/-! ## Bytes that count (R149 to R151, R158) -/

theorem Store.modify_of_read_none {α : Type} {n : Nat} {st : Store α} (h : Store.read n st = none) (f : α → α) :
    Store.modify n f st = st := by
  refine (List.map_congr_left fun x hx => if_neg fun hn => ?_).trans (List.map_id _)
  induction st with
  | nil => cases hx
  | cons y st ih =>
    obtain ⟨n', v⟩ := y
    rw [Store.read_cons] at h
    split at h
    · cases h
    · rename_i hne
      obtain rfl | hx := List.mem_cons.1 hx
      · exact hne hn.symm
      · exact ih h hx

/-- An ARMED watch whose selected sum of some meters is at least its threshold (R158). -/
def watchFires (m : Meters) (x : Nat × Watch) : Bool := !x.2.fired && decide (x.2.threshold ≤ x.2.selectedSum (some m))

/-- The firing of some watches of one slot, told at once: their notices in order, the watches FIRED, and, where one is a
THROTTLE, the slot capped. -/
def State.watchesFired (u : State) (k : TreeId) (tag : Nat) (m : Meters) (serial : Serial) (fired : List (Nat × Watch)) :
    State :=
  { fired.foldl (fun (u : State) x => u.raise k
      (.watchFired x.1 k tag serial (x.2.selectedSum (some m)) x.2.threshold x.2.throttle)) u with
    watches := u.watches.map fun x => if x ∈ fired then (x.1, { x.2 with fired := true }) else x
    roster := u.roster.map fun x =>
      if x.1 = slotOf k tag ∧ (fired.any fun x => x.2.throttle) = true then (x.1, { x.2 with capped := true }) else x
    meters := u.meters.map fun x =>
      if x.1 = slotOf k tag ∧ (fired.any fun x => x.2.throttle) = true then (x.1, { x.2 with cappedDuring := true }) else x }

/-- Raising notices reads and changes nothing of the roster, the meters and the watches. -/
theorem foldl_raise_with {α : Type} (d : α → Detail) (l : List α) (u : State) (watches : Store Watch) (roster : Store Entry)
    (meters : Store Meters) :
    l.foldl (fun (u : State) x => u.raise k (d x)) { u with watches := watches, roster := roster, meters := meters } =
      { l.foldl (fun (u : State) x => u.raise k (d x)) u with watches := watches, roster := roster, meters := meters } := by
  induction l generalizing u with
  | nil => rfl
  | cons x l ih => exact ih (u.raise k (d x))

theorem foldl_raise_frame {α : Type} (d : α → Detail) (l : List α) (u : State) :
    l.foldl (fun (u : State) x => u.raise k (d x)) u =
      { u with ports := (l.foldl (fun (u : State) x => u.raise k (d x)) u).ports } := by
  induction l generalizing u with
  | nil => rfl
  | cons x l ih =>
    rw [List.foldl_cons, ih]
    rfl

section
variable {u : State} {m : Meters} {serial : Serial}

theorem State.watchesFired_nil : u.watchesFired k tag m serial [] = u := by
  simp [State.watchesFired]

/-- The first of several watches of one slot fires, then the others. -/
theorem State.watchesFired_cons {x : Nat × Watch} {l : List (Nat × Watch)} (hx : ∀ y ∈ l, y.1 ≠ x.1) :
    (u.watchesFired k tag m serial [x]).watchesFired k tag m serial l = u.watchesFired k tag m serial (x :: l) := by
  have hwatch : ∀ y : Nat × Watch,
      (let z := if y ∈ [x] then (y.1, { y.2 with fired := true }) else y
       if z ∈ l then (z.1, { z.2 with fired := true }) else z) =
        if y ∈ x :: l then (y.1, { y.2 with fired := true }) else y := by
    intro y
    by_cases hy : y = x
    · subst hy
      have hno : (y.1, { y.2 with fired := true }) ∉ l := fun hc => hx _ hc rfl
      simp [hno]
    · simp [hy]
  have hroster : ∀ y : Nat × Entry,
      (let z := if y.1 = slotOf k tag ∧ ([x].any fun x => x.2.throttle) = true then (y.1, { y.2 with capped := true }) else y
       if z.1 = slotOf k tag ∧ (l.any fun x => x.2.throttle) = true then (z.1, { z.2 with capped := true }) else z) =
        if y.1 = slotOf k tag ∧ ((x :: l).any fun x => x.2.throttle) = true then (y.1, { y.2 with capped := true }) else y := by
    intro y
    by_cases hy : y.1 = slotOf k tag <;> cases hxt : x.2.throttle <;> cases hlt : (l.any fun x => x.2.throttle) <;>
      simp [hy, hxt, hlt]
  have hmeters : ∀ y : Nat × Meters,
      (let z := if y.1 = slotOf k tag ∧ ([x].any fun x => x.2.throttle) = true then (y.1, { y.2 with cappedDuring := true }) else y
       if z.1 = slotOf k tag ∧ (l.any fun x => x.2.throttle) = true then (z.1, { z.2 with cappedDuring := true }) else z) =
        if y.1 = slotOf k tag ∧ ((x :: l).any fun x => x.2.throttle) = true then (y.1, { y.2 with cappedDuring := true })
        else y := by
    intro y
    by_cases hy : y.1 = slotOf k tag <;> cases hxt : x.2.throttle <;> cases hlt : (l.any fun x => x.2.throttle) <;>
      simp [hy, hxt, hlt]
  simp only [State.watchesFired, foldl_raise_with, List.map_map, Function.comp_def]
  simp only [hwatch, hroster, hmeters]
  rfl

/-- One watch of a canonical store fires. -/
theorem State.fireWatch_eq_watchesFired {x : Nat × Watch} (hw : Store.Wf u.watches) (hx : x ∈ u.watches) (ht : x.2.tree = k)
    (htag : x.2.tag = tag) (hserial : u.serialOf k tag = serial)
    (hsum : x.2.selectedSum (u.meterOf k tag) = x.2.selectedSum (some m)) :
    u.fireWatch x.1 x.2 = u.watchesFired k tag m serial [x] := by
  have hread := Store.read_of_mem hw hx
  have hwatches : Store.write x.1 { x.2 with fired := true } u.watches =
      u.watches.map fun y => if y ∈ [x] then (y.1, { y.2 with fired := true }) else y := by
    rw [Store.write_eq_modify hw hread]
    refine List.map_congr_left fun y hy => ?_
    by_cases hkey : y.1 = x.1
    · have hyread := Store.read_of_mem hw hy
      have hval : y.2 = x.2 := Option.some.inj (hyread.symm.trans (hkey ▸ hread))
      obtain rfl : y = x := Prod.ext hkey hval
      simp
    · have hne : y ∉ [x] := fun hc => hkey (congrArg Prod.fst (List.mem_singleton.1 hc))
      rw [if_neg hkey, if_neg hne]
  rw [State.fireWatch_eq, hwatches, ht, htag, hserial, hsum]
  simp only [State.watchesFired, List.any_cons, List.any_nil, Bool.or_false]
  rfl

theorem State.watchesFired_ports_eq (fired : List (Nat × Watch)) :
    u.watchesFired k tag m serial fired = { u with
      ports := (u.watchesFired k tag m serial fired).ports, watches := (u.watchesFired k tag m serial fired).watches
      roster := (u.watchesFired k tag m serial fired).roster, meters := (u.watchesFired k tag m serial fired).meters } := by
  simp only [State.watchesFired]
  rw [foldl_raise_frame]

theorem State.watchesFired_serialOf (fired : List (Nat × Watch)) :
    (u.watchesFired k tag m serial fired).serialOf k tag = u.serialOf k tag := by
  have hread := Store.read_map (fun n e => if n = slotOf k tag ∧ (fired.any fun x => x.2.throttle) = true then
    { e with capped := true } else e) (slotOf k tag) u.roster
  have hroster : (u.watchesFired k tag m serial fired).roster = u.roster.map fun x =>
      (x.1, if x.1 = slotOf k tag ∧ (fired.any fun x => x.2.throttle) = true then { x.2 with capped := true } else x.2) := by
    refine List.map_congr_left fun x _ => ?_
    split <;> rfl
  simp only [State.serialOf, State.entry, hroster, hread]
  cases Store.read (slotOf k tag) u.roster with
  | none => rfl
  | some e =>
    simp only [Option.map_some]
    split <;> rfl

/-- What a watch selects of a slot's meters does not see the capped-during mark. -/
theorem Watch.selectedSum_congr (w : Watch) {m m' : Meters} (hup : m'.up = m.up) (hdown : m'.down = m.down) :
    w.selectedSum (some m') = w.selectedSum (some m) := by
  simp only [Watch.selectedSum, hup, hdown]

theorem State.watchesFired_meterOf (fired : List (Nat × Watch)) {m' : Meters} (hm : u.meterOf k tag = some m') :
    ∃ b, (u.watchesFired k tag m serial fired).meterOf k tag = some { m' with cappedDuring := b } := by
  have hread := Store.read_map (fun n x => if n = slotOf k tag ∧ (fired.any fun x => x.2.throttle) = true then
    { x with cappedDuring := true } else x) (slotOf k tag) u.meters
  have hmeters : (u.watchesFired k tag m serial fired).meters = u.meters.map fun x =>
      (x.1, if x.1 = slotOf k tag ∧ (fired.any fun x => x.2.throttle) = true then { x.2 with cappedDuring := true } else x.2) := by
    refine List.map_congr_left fun x _ => ?_
    split <;> rfl
  have hm : Store.read (slotOf k tag) u.meters = some m' := hm
  simp only [State.meterOf, hmeters, hread, hm, Option.map_some]
  split
  · exact ⟨true, rfl⟩
  · exact ⟨m'.cappedDuring, rfl⟩

/-- The watches of one slot are tested in ascending number, each on what those before it left: those that fire are those whose
sum is at least their threshold at the start (R158). -/
theorem State.foldl_testWatch {m' : Meters} (l : List (Nat × Watch)) (hw : Store.Wf u.watches) (hl : l.Pairwise fun a b => a.1 < b.1)
    (hmem : ∀ x ∈ l, x ∈ u.watches ∧ x.2.tree = k ∧ x.2.tag = tag) (hm : u.meterOf k tag = some m') (hup : m'.up = m.up)
    (hdown : m'.down = m.down) (hserial : u.serialOf k tag = serial) :
    (l.map Prod.fst).foldl State.testWatch u = u.watchesFired k tag m serial (l.filter (watchFires m)) := by
  induction l generalizing u m' with
  | nil => exact State.watchesFired_nil.symm
  | cons x l ih =>
    obtain ⟨⟨hx, ht, htag⟩, hmem⟩ := List.forall_mem_cons.1 hmem
    obtain ⟨hlt, hl⟩ := List.pairwise_cons.1 hl
    have hsum : x.2.selectedSum (u.meterOf k tag) = x.2.selectedSum (some m) := by
      rw [hm]
      exact x.2.selectedSum_congr hup hdown
    have htest : u.testWatch x.1 = if watchFires m x = true then u.fireWatch x.1 x.2 else u := by
      simp only [State.testWatch, Store.read_of_mem hw hx, ht, htag, hsum, watchFires, Bool.and_eq_true, Bool.not_eq_true',
        decide_eq_true_eq]
    rw [List.map_cons, List.foldl_cons, htest]
    cases hf : watchFires m x with
    | false =>
      rw [List.filter_cons_of_neg (by rw [hf]; decide), if_neg (by decide)]
      exact ih hw hl hmem hm hup hdown hserial
    | true =>
      obtain ⟨b, hm1⟩ := State.watchesFired_meterOf (serial := serial) (m := m) [x] hm
      have hne : ∀ y ∈ l, y.1 ≠ x.1 := fun y hy => Nat.ne_of_gt (hlt y hy)
      rw [List.filter_cons_of_pos hf, if_pos rfl, State.fireWatch_eq_watchesFired hw hx ht htag hserial hsum,
        ih (Store.wf_map _ (fun y => by split <;> rfl) _ hw) hl (fun y hy => ?_) hm1 hup hdown
          ((State.watchesFired_serialOf [x]).trans hserial),
        State.watchesFired_cons fun y hy => hne y (List.mem_filter.1 hy).1]
      obtain ⟨hyw, hyslot⟩ := hmem y hy
      have hnot : y ∉ [x] := fun hc => hne y hy (congrArg Prod.fst (List.mem_singleton.1 hc))
      exact ⟨List.mem_map.2 ⟨y, hyw, if_neg hnot⟩, hyslot⟩

end

theorem satAdd_eq (limit n m : Nat) : satAdd limit n m = (min limit (n + m), decide (limit < n + m)) := by
  unfold satAdd
  split <;> simp <;> omega

theorem Meters.addUp_eq (m : Meters) (band : BandId) (n : Nat) :
    m.addUp band n = { m with up := m.up.set band (min 281474976710655 (m.up.get band + n))
                              saturated := m.saturated || decide (281474976710655 < m.up.get band + n) } := by
  simp only [Meters.addUp, satAdd_eq]
  rfl

theorem Meters.addDown_eq (m : Meters) (band : BandId) (n : Nat) :
    m.addDown band n = { m with down := m.down.set band (min 281474976710655 (m.down.get band + n))
                                saturated := m.saturated || decide (281474976710655 < m.down.get band + n) } := by
  simp only [Meters.addDown, satAdd_eq]
  rfl

/-- The numbers of the watches on a slot are those of the watches that name it. -/
theorem State.watchesOn_eq (s : State) (k : TreeId) (tag : Nat) :
    s.watchesOn k tag = (s.watches.filter fun x => decide (x.2.tree = k ∧ x.2.tag = tag)).map Prod.fst := by
  rw [State.watchesOn]
  induction s.watches with
  | nil => rfl
  | cons x l ih => by_cases hx : x.2.tree = k ∧ x.2.tag = tag <;> simp [hx, ih]

/-- Bytes that count for a slot with open meters, and the watches they fire, told at once. -/
theorem State.countWatched (hs : StoresCanonical s) {m : Meters} (hm : s.meterOf k tag = some m) (f : Meters → Meters) :
    let fired := s.watches.filter fun x =>
      x.2.tree = k ∧ x.2.tag = tag ∧ x.2.fired = false ∧ x.2.threshold ≤ x.2.selectedSum (some (f m))
    let throttled := fired.any fun x => x.2.throttle
    (s.modMeters k tag f).testWatches k tag =
      { fired.foldl (fun (u : State) x => u.raise k
          (.watchFired x.1 k tag (s.serialOf k tag) (x.2.selectedSum (some (f m))) x.2.threshold x.2.throttle)) s with
        meters := s.meters.map fun x =>
          if x.1 = slotOf k tag then (x.1, { f m with cappedDuring := (f m).cappedDuring || throttled }) else x
        watches := s.watches.map fun x => if x ∈ fired then (x.1, { x.2 with fired := true }) else x
        roster := s.roster.map fun x =>
          if x.1 = slotOf k tag ∧ throttled = true then (x.1, { x.2 with capped := true }) else x } := by
  obtain ⟨-, hmeters, hwatches, -⟩ := hs
  have hfired : (s.watches.filter fun x => decide (x.2.tree = k ∧ x.2.tag = tag)).filter (watchFires (f m)) =
      s.watches.filter fun x =>
        x.2.tree = k ∧ x.2.tag = tag ∧ x.2.fired = false ∧ x.2.threshold ≤ x.2.selectedSum (some (f m)) := by
    rw [List.filter_filter]
    refine List.filter_congr fun x _ => ?_
    rw [Bool.eq_iff_iff]
    simp only [watchFires, Bool.and_eq_true, Bool.not_eq_true', decide_eq_true_eq]
    tauto
  have hmeter : (s.modMeters k tag f).meterOf k tag = some (f m) := by
    rw [State.meterOf, State.modMeters, Store.read_modify_self]
    exact congrArg (Option.map f) hm
  have htest := State.foldl_testWatch (u := s.modMeters k tag f) (k := k) (tag := tag) (m := f m) (serial := s.serialOf k tag)
    (s.watches.filter fun x => decide (x.2.tree = k ∧ x.2.tag = tag)) hwatches (List.Pairwise.filter _ hwatches)
    (fun x hx => ⟨(List.mem_filter.1 hx).1, by simpa using (List.mem_filter.1 hx).2⟩) hmeter rfl rfl rfl
  rw [hfired] at htest
  intro fired throttled
  have hcounted : ∀ x ∈ s.meters,
      (let y := if x.1 = slotOf k tag then (x.1, f x.2) else x
       if y.1 = slotOf k tag ∧ throttled = true then (y.1, { y.2 with cappedDuring := true }) else y) =
        if x.1 = slotOf k tag then (x.1, { f m with cappedDuring := (f m).cappedDuring || throttled }) else x := by
    intro x hx
    by_cases hslot : x.1 = slotOf k tag
    · have hval : x.2 = m := Option.some.inj ((hslot ▸ Store.read_of_mem hmeters hx).symm.trans hm)
      cases hth : throttled <;> simp [hslot, hval]
    · simp [hslot]
  have hcountedAll : ((s.modMeters k tag f).meters.map fun y =>
      if y.1 = slotOf k tag ∧ throttled = true then (y.1, { y.2 with cappedDuring := true }) else y) =
        s.meters.map fun x =>
          if x.1 = slotOf k tag then (x.1, { f m with cappedDuring := (f m).cappedDuring || throttled }) else x := by
    rw [State.modMeters, Store.modify, List.map_map]
    exact List.map_congr_left hcounted
  have hraise := foldl_raise_with (k := k) (fun x : Nat × Watch => .watchFired x.1 k tag (s.serialOf k tag)
    (x.2.selectedSum (some (f m))) x.2.threshold x.2.throttle) fired s s.watches s.roster (s.modMeters k tag f).meters
  rw [State.testWatches, State.watchesOn_eq]
  refine htest.trans ?_
  rw [← hcountedAll]
  exact congrArg (fun u : State => { u with
    watches := s.watches.map fun (x : Nat × Watch) => if x ∈ fired then (x.1, { x.2 with fired := true }) else x
    roster := s.roster.map fun (x : Nat × Entry) =>
      if x.1 = slotOf k tag ∧ throttled = true then (x.1, { x.2 with capped := true }) else x
    meters := (s.modMeters k tag f).meters.map fun (y : Nat × Meters) =>
      if y.1 = slotOf k tag ∧ throttled = true then (y.1, { y.2 with cappedDuring := true }) else y }) hraise

/-- With closed meters nothing counts, and no watch of a threshold of 1 or more fires. -/
theorem State.countClosed (hw : Store.Wf s.watches) (hm : s.meterOf k tag = none) (hth : ∀ x ∈ s.watches, 1 ≤ x.2.threshold)
    (f : Meters → Meters) : (s.modMeters k tag f).testWatches k tag = s := by
  have hmod : s.modMeters k tag f = s := by
    rw [State.modMeters, Store.modify_of_read_none hm]
  have htest : ∀ n ∈ s.watchesOn k tag, s.testWatch n = s := by
    intro n hn
    rw [State.watchesOn_eq] at hn
    obtain ⟨x, hx, rfl⟩ := List.mem_map.1 hn
    obtain ⟨hx, hslot⟩ := List.mem_filter.1 hx
    obtain ⟨ht, htag⟩ := of_decide_eq_true hslot
    have hpos := hth x hx
    have hquiet : ¬ (x.2.fired = false ∧ x.2.threshold ≤ x.2.selectedSum none) := fun h => by
      have hle : x.2.threshold ≤ 0 := h.2
      omega
    simp only [State.testWatch, Store.read_of_mem hw hx, ht, htag, hm, if_neg hquiet]
  have hfold : ∀ l : List Nat, (∀ n ∈ l, s.testWatch n = s) → l.foldl State.testWatch s = s := by
    intro l hl
    induction l with
    | nil => rfl
    | cons n l ih =>
      obtain ⟨hn, hl⟩ := List.forall_mem_cons.1 hl
      rw [List.foldl_cons, hn, ih hl]
  rw [hmod]
  exact hfold _ htest

/-- Settles O47. -/
theorem countsFireWatches : Obligations.CountsFireWatches := by
  intro s k tag n hs _
  refine ⟨fun m hm => ⟨?_, ?_⟩, fun hm hth => ?_⟩
  · rw [State.countUp, State.countWatched hs hm, Meters.addUp_eq]
    rfl
  · rw [State.countDown, State.countWatched hs hm, Meters.addDown_eq]
    rfl
  · obtain ⟨-, -, hwatches, -⟩ := hs
    exact ⟨State.countClosed hwatches hm hth _, State.countClosed hwatches hm hth _⟩

end Sys2Proof.Machine
end

section
/-! PROOFS. A whole interval close (O48): what the close of one slot after another leaves, told by the tags written so far. -/

namespace Sys2Proof.Machine

variable {s u : State} {k : TreeId} {tag : Nat} {written : List Nat}

/-! ## Slots by number, and stores changed at some of them -/

theorem eq_slotOf_iff (h : tagOk tag = true) (n : Nat) : n = slotOf k tag ↔ slotTree n = k.val ∧ slotTag n = tag := by
  obtain ⟨hlo, hhi⟩ := tagOk_eq_true_iff.1 h
  unfold slotOf slotTree slotTag
  omega

/-- A slot of a tree whose tag is listed. -/
abbrev SlotListed (k : TreeId) (tags : List Nat) (n : Nat) : Prop := n / 128 = k.val ∧ n % 128 + 1 ∈ tags

theorem slotListed_append (h : tagOk tag = true) (n : Nat) :
    SlotListed k (written ++ [tag]) n ↔ SlotListed k written n ∨ n = slotOf k tag := by
  rw [eq_slotOf_iff h, SlotListed, SlotListed, List.mem_append, List.mem_singleton]
  exact and_or_left

theorem slotListed_slotOf (h : tagOk tag = true) : SlotListed k written (slotOf k tag) ↔ tag ∈ written := by
  obtain ⟨htree, htag, -⟩ := slot_of_slotOf (t := k) h
  constructor
  · rintro ⟨-, hm⟩
    exact htag ▸ hm
  · exact fun hm => ⟨htree, (congrArg (· ∈ written) htag).mpr hm⟩

section
variable {α : Type} (g : α → α)

/-- A store whose values are changed in the slots of some tags of a tree. -/
def Store.changedAt (k : TreeId) (tags : List Nat) (st : Store α) : Store α :=
  st.map fun x => if SlotListed k tags x.1 then (x.1, g x.2) else x

theorem Store.changedAt_nil (st : Store α) : Store.changedAt g k [] st = st :=
  (List.map_congr_left fun _ _ => if_neg fun h => List.not_mem_nil h.2).trans (List.map_id _)

/-- A slot that is not listed reads as before. -/
theorem Store.read_changedAt (h : tagOk tag = true) (hm : tag ∉ written) (st : Store α) :
    Store.read (slotOf k tag) (Store.changedAt g k written st) = Store.read (slotOf k tag) st := by
  have hread := Store.read_map (fun n v => if SlotListed k written n then g v else v) (slotOf k tag) st
  have hno : ¬ SlotListed k written (slotOf k tag) := fun hc => hm ((slotListed_slotOf h).1 hc)
  have hst : Store.changedAt g k written st = st.map fun x => (x.1, if SlotListed k written x.1 then g x.2 else x.2) := by
    refine List.map_congr_left fun x _ => ?_
    split <;> rfl
  rw [hst, hread]
  simp only [if_neg hno, Option.map_id']

/-- One more slot of the tree. -/
theorem Store.modify_changedAt (h : tagOk tag = true) (hm : tag ∉ written) (st : Store α) :
    Store.modify (slotOf k tag) g (Store.changedAt g k written st) = Store.changedAt g k (written ++ [tag]) st := by
  rw [Store.modify, Store.changedAt, List.map_map]
  refine List.map_congr_left fun x _ => ?_
  have happ := slotListed_append (k := k) (written := written) h x.1
  by_cases hn : x.1 = slotOf k tag
  · have hno : ¬ SlotListed k written x.1 := fun hc => hm ((slotListed_slotOf h).1 (hn ▸ hc))
    simp only [Function.comp, if_neg hno, if_pos hn, if_pos (happ.2 (.inr hn))]
  · by_cases hw : SlotListed k written x.1
    · simp only [Function.comp, if_pos hw, if_neg hn, if_pos (happ.2 (.inl hw))]
    · have hno : ¬ SlotListed k (written ++ [tag]) x.1 := fun hc => (happ.1 hc).elim hw hn
      simp only [Function.comp, if_neg hw, if_neg hn, if_neg hno]

theorem Store.wf_changedAt {st : Store α} (hw : Store.Wf st) : Store.Wf (Store.changedAt g k written st) :=
  Store.wf_map _ (fun x => by split <;> rfl) _ hw

end

/-! ## The slots of an interval close (R154, R165, R170) -/

/-- A slot that an interval close writes or carries: its meters are open, and were not opened at this cut (R165). -/
def State.closable (s : State) (k : TreeId) (tag : Nat) : Bool :=
  match s.meterOf k tag, s.entry k tag with
  | some m, some _ => m.openedCut ≠ s.round
  | _, _ => false

theorem State.closable_iff :
    s.closable k tag = true ↔ ∃ m e, s.meterOf k tag = some m ∧ s.entry k tag = some e ∧ m.openedCut ≠ s.round := by
  unfold State.closable
  split
  · rename_i m e hm he
    simp [hm, he]
  · rename_i hno
    simp only [Bool.false_eq_true, false_iff, not_exists]
    exact fun m e h => hno m e h.1 h.2.1

/-- The notice that the records of a close bring, where one of them brings the held count to the mark (R170). -/
def State.markReached (s : State) : State :=
  s.raiseKeyless (.journalHigh s.journal.mark s.journal.booked s.journal.mark s.round)

/-- What an interval close that began at a part has made of it when the slots of some tags are written. -/
structure CloseProgress (s u : State) (k : TreeId) (written : List Nat) : Prop where
  frame : u = { s with journal := u.journal, meters := u.meters, roster := u.roster, watches := u.watches, ports := u.ports }
  booked : u.journal.booked = s.journal.booked
  mark : u.journal.mark = s.journal.mark
  intervals : u.journal.intervals = s.journal.intervals
  before : u.journal.records.take s.journal.records.length = s.journal.records
  length : u.journal.records.length = s.journal.records.length + written.length
  records : ∀ (i tag : Nat) (m : Meters) (e : Entry), written[i]? = some tag → s.meterOf k tag = some m →
    s.entry k tag = some e → u.journal.records[s.journal.records.length + i]? = some (s.recordOf false k tag e m)
  meters : u.meters = Store.changedAt (fun _ => zeroMeters s.round false) k written s.meters
  roster : u.roster = Store.changedAt (fun e => { e with capped := false }) k written s.roster
  watches : u.watches = s.watches.map fun x =>
    if x.2.tree = k ∧ x.2.tag ∈ written then (x.1, { x.2 with fired := false }) else x
  reached : s.journal.records.length < s.journal.mark → s.journal.mark ≤ s.journal.records.length + written.length →
    u.ports = s.markReached.ports
  quiet : s.journal.mark ≤ s.journal.records.length ∨ s.journal.records.length + written.length < s.journal.mark →
    u.ports = s.ports

theorem CloseProgress.start (s : State) (k : TreeId) : CloseProgress s s k [] where
  frame := rfl
  booked := rfl
  mark := rfl
  intervals := rfl
  before := List.take_length
  length := rfl
  records _ _ _ _ hi := nomatch hi
  meters := (Store.changedAt_nil _ _).symm
  roster := (Store.changedAt_nil _ _).symm
  watches := ((List.map_congr_left fun _ _ => if_neg fun h => List.not_mem_nil h.2).trans (List.map_id _)).symm
  reached h h' := absurd h (Nat.not_lt.2 h')
  quiet _ := rfl

section
variable (h : CloseProgress s u k written) (ht : tagOk tag = true) (hm : tag ∉ written)
include h

theorem CloseProgress.round : u.round = s.round := by rw [h.frame]

theorem CloseProgress.routes : u.routes = s.routes := by rw [h.frame]

include ht hm

theorem CloseProgress.meterOf : u.meterOf k tag = s.meterOf k tag := by
  rw [State.meterOf, h.meters, Store.read_changedAt _ ht hm, State.meterOf]

theorem CloseProgress.entry : u.entry k tag = s.entry k tag := by
  rw [State.entry, h.roster, Store.read_changedAt _ ht hm, State.entry]

end

/-- A notice without a tree depends on the ports, the routes and the round alone. -/
theorem raiseKeyless_ports_congr {s u : State} (hports : u.ports = s.ports) (hroutes : u.routes = s.routes)
    (hround : u.round = s.round) (d : Detail) : (u.raiseKeyless d).ports = (s.raiseKeyless d).ports := by
  simp only [State.raiseKeyless, State.raiseAt, State.modPort, State.setPort, State.port, hports, hroutes, hround]

/-- The ports after one more record: JOURNAL_HIGH where it is the one that reaches the mark (R170). -/
theorem CloseProgress.ports_writeRecord (h : CloseProgress s u k written) (r : Record) :
    (u.writeRecord r).ports =
      if s.journal.records.length + written.length < s.journal.mark ∧
        s.journal.mark ≤ s.journal.records.length + written.length + 1 then s.markReached.ports
      else u.ports := by
  have hlength : (u.appendRecord r).journal.records.length = s.journal.records.length + written.length + 1 := by
    show (u.journal.records ++ [r]).length = _
    rw [List.length_append, h.length]
    rfl
  have hmark : (u.appendRecord r).journal.mark = s.journal.mark := h.mark
  have hbooked : (u.appendRecord r).journal.booked = s.journal.booked := h.booked
  have hround : (u.appendRecord r).round = s.round := h.round
  rw [State.writeRecord, State.journalRose, h.length]
  simp only [hlength, hmark, hbooked, hround]
  split
  · rename_i hrises
    obtain ⟨hbelow, hat⟩ := hrises
    have hexact : s.journal.records.length + written.length + 1 = s.journal.mark := by omega
    rw [hexact]
    exact raiseKeyless_ports_congr (h.quiet (.inr hbelow)) h.routes h.round _
  · rfl

theorem CloseProgress.with (h : CloseProgress s u k written) (journal : Journal) (meters : Store Meters) (roster : Store Entry)
    (watches : Store Watch) (ports : Trio PortState) :
    { u with journal := journal, meters := meters, roster := roster, watches := watches, ports := ports } =
      { s with journal := journal, meters := meters, roster := roster, watches := watches, ports := ports } := by
  rw [h.frame]

/-- One more slot is written. -/
theorem CloseProgress.write (h : CloseProgress s u k written) (hs : StoresCanonical s) (ht : tagOk tag = true) (hm : tag ∉ written)
    {m : Meters} {e : Entry} (hmeter : s.meterOf k tag = some m) (he : s.entry k tag = some e) :
    CloseProgress s (u.slotClosed k tag e m) k (written ++ [tag]) where
  frame := h.with _ _ _ _ _
  booked := h.booked
  mark := h.mark
  intervals := h.intervals
  before := by
    have hle : s.journal.records.length ≤ u.journal.records.length := h.length ▸ Nat.le_add_right _ _
    exact (List.take_append_of_le_length hle).trans h.before
  length := by
    show (u.journal.records ++ [_]).length = _
    rw [List.length_append, h.length, List.length_append]
    rfl
  records i tag' m' e' hi hm' he' := by
    show (u.journal.records ++ [u.recordOf false k tag e m])[_]? = _
    by_cases hlt : i < written.length
    · rw [List.getElem?_append_left hlt] at hi
      rw [List.getElem?_append_left (by rw [h.length]; omega)]
      exact h.records i tag' m' e' hi hm' he'
    · have hlen : i < (written ++ [tag]).length := (List.getElem?_eq_some_iff.1 hi).1
      rw [List.length_append, List.length_singleton] at hlen
      obtain rfl : i = written.length := by omega
      rw [List.getElem?_concat_length] at hi
      obtain rfl := Option.some.inj hi
      obtain rfl := Option.some.inj (hmeter.symm.trans hm')
      obtain rfl := Option.some.inj (he.symm.trans he')
      rw [← h.length, List.getElem?_concat_length]
      simp only [State.recordOf, h.round, h.intervals]
  meters := by
    obtain ⟨-, hw, -⟩ := hs
    have hread : Store.read (slotOf k tag) u.meters = some m := (h.meterOf ht hm).trans hmeter
    have hwu : Store.Wf u.meters := h.meters ▸ Store.wf_changedAt _ hw
    show Store.write (slotOf k tag) (zeroMeters u.round false) u.meters = _
    rw [Store.write_eq_modify hwu hread, h.round, h.meters, Store.modify_changedAt _ ht hm]
  roster := by
    show Store.modify (slotOf k tag) (fun e : Entry => { e with capped := false }) u.roster = _
    rw [h.roster, Store.modify_changedAt _ ht hm]
  watches := by
    show u.watches.map _ = _
    rw [h.watches, List.map_map]
    refine List.map_congr_left fun x _ => ?_
    by_cases hx : x.2.tree = k ∧ x.2.tag ∈ written
    · simp [hx]
    · by_cases hn : x.2.tree = k ∧ x.2.tag = tag
      · have hno : tag ∉ written := hm
        simp [hn, hno]
      · have hno : ¬ (x.2.tree = k ∧ x.2.tag ∈ written ++ [tag]) := fun hc =>
          (List.mem_append.1 hc.2).elim (fun h => hx ⟨hc.1, h⟩) fun h => hn ⟨hc.1, List.mem_singleton.1 h⟩
        simp only [Function.comp, if_neg hx, if_neg hn, if_neg hno]
  reached hlow hhigh := by
    rw [List.length_append, List.length_singleton, ← Nat.add_assoc] at hhigh
    show (u.writeRecord _).ports = _
    rw [h.ports_writeRecord]
    split
    · rfl
    · exact h.reached hlow (by omega)
  quiet hno := by
    rw [List.length_append, List.length_singleton, ← Nat.add_assoc] at hno
    show (u.writeRecord _).ports = _
    rw [h.ports_writeRecord, if_neg (by omega)]
    exact h.quiet (by omega)

/-! ## All slots of a tree -/

theorem State.closeSlot_of_not_closable (h : ¬ s.closable k tag = true) (tally : CloseTally) :
    s.closeSlot tally k tag = (s, tally) := by
  cases hm : s.meterOf k tag with
  | none => simp only [State.closeSlot, hm]
  | some m =>
    cases he : s.entry k tag with
    | none => simp only [State.closeSlot, hm, he]
    | some e =>
      have ho : m.openedCut = s.round := not_not.1 fun ho => h (State.closable_iff.2 ⟨m, e, hm, he, ho⟩)
      exact State.closeSlot_of_opened hm he ho tally

/-- The tags whose meters are open, in ascending order. -/
theorem State.openTags_eq (hw : Store.Wf s.meters) (k : TreeId) :
    s.openTags k = allTags.filter fun tag => (s.meterOf k tag).isSome := by
  have htags : s.openTags k = (Store.ofTree k s.meters).map Prod.fst := by
    rw [State.openTags, Store.ofTree, List.map_filterMap]
    refine List.filterMap_congr fun x _ => ?_
    split <;> rfl
  rw [htags, Store.ofTree_eq hw, List.map_filterMap, ← List.filterMap_eq_filter]
  refine List.filterMap_congr fun tag _ => ?_
  show Option.map _ (Option.map _ (s.meterOf k tag)) = _
  cases hm : s.meterOf k tag <;> simp [Option.guard, hm]

/-- An interval close over a list of slots: the first that fit the room are written, the others carried (R165). -/
theorem closeSlots_spec (hs : StoresCanonical s) {room : Nat} (hroom : room = 1984 - (s.journal.records.length + s.journal.booked))
    (l : List Nat) (hl : l.Nodup) (htags : ∀ tag ∈ l, tagOk tag = true) (hnew : ∀ tag ∈ l, tag ∉ written)
    (h : CloseProgress s u k written) (hfit : written.length ≤ room) (carried : Nat) :
    let slots := written ++ l.filter (s.closable k)
    ∃ u', l.foldl (fun acc tag => acc.1.closeSlot acc.2 k tag) (u, { written := written.length, carried := carried }) =
        (u', { written := (slots.take room).length, carried := carried + (slots.length - (slots.take room).length) }) ∧
      CloseProgress s u' k (slots.take room) := by
  induction l generalizing u written carried with
  | nil => exact ⟨u, by simp [List.take_of_length_le hfit], by simpa [List.take_of_length_le hfit] using h⟩
  | cons tag l ih =>
    obtain ⟨hnotin, hl⟩ := List.nodup_cons.1 hl
    obtain ⟨ht, htags⟩ := List.forall_mem_cons.1 htags
    obtain ⟨hm, hnew⟩ := List.forall_mem_cons.1 hnew
    have hmeter := h.meterOf ht hm
    have hentry := h.entry ht hm
    by_cases hc : s.closable k tag = true
    · obtain ⟨m, e, hms, hes, ho⟩ := State.closable_iff.1 hc
      have hou : m.openedCut ≠ u.round := h.round ▸ ho
      rw [List.foldl_cons, List.filter_cons_of_pos hc]
      by_cases hlt : written.length < room
      · have hstep := State.closeSlot_of_room (hmeter.trans hms) (hentry.trans hes) hou (by rw [h.length, h.booked]; omega)
          { written := written.length, carried := carried }
        have hnew' : ∀ tag' ∈ l, tag' ∉ written ++ [tag] := fun tag' h' hc' =>
          (List.mem_append.1 hc').elim (hnew tag' h') fun h'' => hnotin (List.mem_singleton.1 h'' ▸ h')
        have hih := ih hl htags hnew' (h.write hs ht hm hms hes) (by rw [List.length_append]; exact hlt) carried
        rw [List.length_append, List.append_assoc] at hih
        rw [hstep]
        exact hih
      · have hfull : written.length = room := by omega
        have hstep := State.closeSlot_of_full (hmeter.trans hms) (hentry.trans hes) hou (by rw [h.length, h.booked]; omega)
          { written := written.length, carried := carried }
        obtain ⟨u', hu', hp⟩ := ih hl htags hnew h hfit (carried + 1)
        subst hfull
        simp only [List.take_left] at hu' hp ⊢
        refine ⟨u', ?_, hp⟩
        rw [hstep, hu']
        simp only [List.length_append, List.length_cons]
        congr 2
        omega
    · have hcu : ¬ u.closable k tag = true := by
        rw [State.closable_iff, hmeter, hentry, h.round, ← State.closable_iff]
        exact hc
      have hstep := State.closeSlot_of_not_closable hcu { written := written.length, carried := carried }
      rw [List.foldl_cons, List.filter_cons_of_neg hc, hstep]
      exact ih hl htags hnew h hfit carried

/-- Settles O48: the close of a tree is that of its closable slots, the first of them that fit the room written. -/
theorem intervalClosed : Obligations.IntervalClosed := by
  intro s k hs
  have hmeters : Store.Wf s.meters := hs.2.1
  have hopen : s.openTags k = allTags.filter fun tag => (s.meterOf k tag).isSome := State.openTags_eq hmeters k
  have hsub : (s.openTags k).Sublist allTags := hopen ▸ List.filter_sublist
  have hfilter : (s.openTags k).filter (s.closable k) = allTags.filter (s.closable k) := by
    rw [hopen, List.filter_filter]
    refine List.filter_congr fun tag _ => ?_
    cases hc : s.closable k tag with
    | false => rfl
    | true =>
      obtain ⟨m, -, hm, -⟩ := State.closable_iff.1 hc
      rw [hm]
      rfl
  have htags : ∀ tag ∈ s.openTags k, tagOk tag = true := fun tag h => by
    have hrange : 1 ≤ tag ∧ tag < 1 + 128 := List.mem_range'_1.1 (hsub.subset h)
    exact tagOk_eq_true_iff.2 (by omega)
  obtain ⟨u, hu, hp⟩ := closeSlots_spec hs rfl (s.openTags k) (hsub.nodup List.nodup_range') htags
    (fun _ _ => List.not_mem_nil) (CloseProgress.start s k) (Nat.zero_le _) 0
  rw [List.nil_append, hfilter] at hu hp
  rw [Nat.zero_add] at hu
  intro slotsOf held booked written isWritten number
  refine ⟨{ u with journal := { u.journal with intervals := u.journal.intervals.set k (number + 1) } }, ?_, hp.booked, hp.mark, ?_,
    hp.before, hp.length, hp.records, hp.meters, hp.roster, hp.watches, ?_, hp.reached, hp.quiet⟩
  · have hclose : (s.openTags k).foldl (fun acc tag => acc.1.closeSlot acc.2 k tag) (s, { written := 0, carried := 0 }) =
        (u, { written := written.length, carried := slotsOf.length - written.length }) := hu
    have hlength : u.journal.records.length = held + written.length := hp.length
    simp only [State.closeTree, hclose, hp.round, hp.intervals, hp.booked, hlength]
    rfl
  · rw [hp.intervals]
  · exact hp.with _ _ _ _ _

end Sys2Proof.Machine
end

section
/-! PROOFS. The baseline of a settling tree (O16), and the traffic interface (O27). -/

namespace Sys2Proof.Machine

variable {s : State} {k : TreeId}

@[simp] theorem State.setTree_setTree (x y : Tree) : (s.setTree k x).setTree k y = s.setTree k y := by
  simp only [State.setTree, Quad.set_set]

theorem TreeState.not_down_faulted {p : TreeState} (h : p = .settling ∨ p = .running) : ¬ (p = .down ∨ p = .faulted) := by
  obtain rfl | rfl := h <;> decide

theorem TreeState.down_faulted_of_not {p : TreeState} (h : ¬ (p = .settling ∨ p = .running)) : p = .down ∨ p = .faulted := by
  cases p with
  | down => exact .inl rfl
  | faulted => exact .inr rfl
  | settling => exact absurd (.inl rfl) h
  | running => exact absurd (.inr rfl) h

/-! ## The packet that waits at the interface (R71) -/

theorem State.takeHeldPacket_of_none (h : s.heldPacket = none) : s.takeHeldPacket = s := by
  simp only [State.takeHeldPacket, h]

section
variable {o : OfferedPacket} (ho : s.heldPacket = some o)
  (hp : (s.tree o.tree).phase = .settling ∨ (s.tree o.tree).phase = .running)
include ho hp

theorem State.takeHeldPacket_of_room (h : downBytes (s.tree o.tree).framer.buffer + o.packet.payload.length ≤ 262144) :
    s.takeHeldPacket = { s with heldPacket := none }.setTree o.tree
      { s.tree o.tree with framer := { (s.tree o.tree).framer with
          buffer := (s.tree o.tree).framer.buffer ++ [o.packet] } } := by
  have hroom : downBytes (s.tree o.tree).framer.buffer + o.packet.payload.length ≤ bufferBytes := h
  simp only [State.takeHeldPacket, ho, if_neg (TreeState.not_down_faulted hp), if_pos hroom]
  rfl

theorem State.takeHeldPacket_of_full (h : 262144 < downBytes (s.tree o.tree).framer.buffer + o.packet.payload.length) :
    s.takeHeldPacket = s := by
  have hfull : ¬ downBytes (s.tree o.tree).framer.buffer + o.packet.payload.length ≤ bufferBytes := Nat.not_le.2 h
  simp only [State.takeHeldPacket, ho, if_neg (TreeState.not_down_faulted hp), if_neg hfull]

end

/-! ## Packets offered (R71) -/

section
variable (tag : Nat) (payload : List Byte)

theorem State.offerPacket_of_waiting (h : s.heldPacket ≠ none) : s.offerPacket k tag payload = s := by
  cases ho : s.heldPacket with
  | none => exact absurd ho h
  | some o => simp only [State.offerPacket, ho]

/-- A packet that is given at once is one of an odd length, for a tree that does not run, or with a tag that is none. -/
theorem State.offerPacket_of_ready (h : s.heldPacket = none) :
    s.offerPacket k tag payload =
      if 1 ≤ payload.length ∧ payload.length ≤ 2048 ∧ ((s.tree k).phase = .settling ∨ (s.tree k).phase = .running) ∧
        1 ≤ tag ∧ tag ≤ 128 then
        if downBytes (s.tree k).framer.buffer + payload.length ≤ 262144 then
          s.setTree k { s.tree k with framer := { (s.tree k).framer with
            buffer := (s.tree k).framer.buffer ++ [{ tag := tag, payload := payload }] } }
        else { s with heldPacket := some { tree := k, packet := { tag := tag, payload := payload } } }
      else s := by
  by_cases hlength : payload.length = 0 ∨ maxPacket < payload.length
  · have hbad : ¬ (1 ≤ payload.length ∧ payload.length ≤ 2048 ∧
        ((s.tree k).phase = .settling ∨ (s.tree k).phase = .running) ∧ 1 ≤ tag ∧ tag ≤ 128) := by
      rw [maxPacket] at hlength
      omega
    simp only [State.offerPacket, h, if_pos hlength, if_neg hbad]
  by_cases hphase : (s.tree k).phase = .settling ∨ (s.tree k).phase = .running
  · cases htag : tagOk tag with
    | false =>
      have hbad : ¬ (1 ≤ tag ∧ tag ≤ 128) := by
        rw [tagOk_eq_false_iff] at htag
        omega
      simp only [State.offerPacket, h, if_neg hlength, if_neg (TreeState.not_down_faulted hphase), htag, if_true, hbad,
        and_false, if_false]
    | true =>
      have hgood : 1 ≤ payload.length ∧ payload.length ≤ 2048 ∧
          ((s.tree k).phase = .settling ∨ (s.tree k).phase = .running) ∧ 1 ≤ tag ∧ tag ≤ 128 := by
        rw [maxPacket] at hlength
        exact ⟨by omega, by omega, hphase, tagOk_eq_true_iff.1 htag⟩
      simp only [State.offerPacket, h, if_neg hlength, if_neg (TreeState.not_down_faulted hphase), htag, Bool.true_eq_false,
        if_false, if_pos hgood]
      rfl
  · simp only [State.offerPacket, h, if_neg hlength, if_pos (TreeState.down_faulted_of_not hphase), hphase, false_and, and_false,
      if_false]

end

/-- Settles O27. -/
theorem packetsHandled : Obligations.PacketsHandled := by
  refine ⟨fun s k tag payload => ⟨fun h => ?_, fun h hbad => ?_, fun h hgood hroom => ?_, fun h hgood hfull => ?_⟩,
    fun s o ho => ⟨fun hp => ?_, fun hp hroom => ?_, fun hp hfull => ?_⟩, fun s p rest h => ?_⟩
  · exact congrArg Host.Outcome.next (State.offerPacket_of_waiting tag payload h)
  · exact congrArg Host.Outcome.next ((State.offerPacket_of_ready tag payload h).trans (if_neg hbad))
  · exact congrArg Host.Outcome.next ((State.offerPacket_of_ready tag payload h).trans ((if_pos hgood).trans (if_pos hroom)))
  · exact congrArg Host.Outcome.next
      ((State.offerPacket_of_ready tag payload h).trans ((if_pos hgood).trans (if_neg (Nat.not_le.2 hfull))))
  · exact congrArg Host.Outcome.next (State.takeHeldPacket_heldPacket ho hp)
  · exact congrArg Host.Outcome.next (State.takeHeldPacket_of_room ho hp hroom)
  · exact congrArg Host.Outcome.next (State.takeHeldPacket_of_full ho hp hfull)
  · refine congrArg Host.Outcome.next ?_
    simp only [State.deliverOldest, h]

/-! ## The baseline (R4) -/

theorem Tree.guardAtZero_of_none {x : Tree} (h : x.checker.carried = none) : x.guardAtZero = false := by
  simp only [Tree.guardAtZero, h]

/-- A settling window of a tree that judges it raises the baseline, and at the sixteenth the baseline is judged. -/
theorem State.darkEnds_of_settling (samples : List Sample) {r : PlanRecord} {width : Nat} (hphase : (s.tree k).phase = .settling)
    (hr : (s.tree k).record s.round = some r) (hd : r.dark = some width) (hmuted : (s.tree k).checker.muted = false)
    (htaken : (s.tree k).checker.darkTaken = false) (hcarried : (s.tree k).checker.carried = none) (hno : r.settlingNo ≠ 0) :
    let seen := s.setTree k { s.tree k with
      light := { (s.tree k).light with baseline := max (s.tree k).light.baseline (levelOver 0 (32 * width) samples) }
      checker := { (s.tree k).checker with darkTaken := true } }
    s.darkEnds k samples = if r.settlingNo = 16 then seen.judgeBaseline k else seen := by
  simp [State.darkEnds, hr, hd, hmuted, htaken, hphase, hno, darkLevel, Tree.guardAtZero_of_none hcarried, State.modChecker,
    State.modLight, State.modTree]

theorem State.judgeBaseline_of_low (h : (s.tree k).light.baseline ≤ 2048) :
    s.judgeBaseline k =
      (s.setTree k { s.tree k with phase := .running, light := { (s.tree k).light with suspicion := .clear } }).raise k
        (.treeReady k (s.tree k).light.baseline) := if_neg (Nat.not_lt.2 h)

/-- A tree whose baseline is too high, before the packet that waits at the interface is looked at (R4, R70). -/
def State.faulted (s : State) (k : TreeId) : State :=
  (s.setTree k { s.tree k with
    phase := .faulted, plans := (s.tree k).plans.filter fun y => y.round = s.round
    framer := { (s.tree k).framer with buffer := [] }
    checker := { (s.tree k).checker with muted := true, marks := [], carried := none, carriedIdle := none } }).raise k
    (.treeFault k (s.tree k).light.baseline)

theorem State.judgeBaseline_of_high (h : 2048 < (s.tree k).light.baseline) :
    s.judgeBaseline k = (s.faulted k).takeHeldPacket := if_pos h

theorem State.faulted_tree : ((s.faulted k).tree k).phase = .faulted :=
  congrArg Tree.phase (Quad.get_set_self s.trees k _)

theorem State.faulted_tree_ne {j : TreeId} (h : j ≠ k) : (s.faulted k).tree j = s.tree j := Quad.get_set_ne s.trees _ h

/-- Settles O16, by the number of the settling window and the baseline. -/
theorem baselineJudged : Obligations.BaselineJudged := by
  intro s k samples r width hphase hr hd hmuted htaken hcarried x base seen
  have hdark := fun hno => State.darkEnds_of_settling samples hphase hr hd hmuted htaken hcarried hno
  have hexec : exec (.darkWindowEnd k samples) s = .next (s.darkEnds k samples) := rfl
  have hseen : (seen.tree k).light.baseline = base := by rw [State.setTree_tree]
  rw [hexec]
  refine ⟨fun hlo hhi => ?_, fun hlast hbase => ?_, fun hlast hbase => ?_⟩
  · rw [hdark (by omega), if_neg (by omega)]
  · have hjudged : s.darkEnds k samples = seen.judgeBaseline k := (hdark (by omega)).trans (if_pos hlast)
    rw [hjudged, State.judgeBaseline_of_low (hseen.symm ▸ hbase), hseen]
  · have hjudged : s.darkEnds k samples = seen.judgeBaseline k := (hdark (by omega)).trans (if_pos hlast)
    rw [hjudged, State.judgeBaseline_of_high (hseen.symm ▸ hbase)]
    intro faulted
    have hfaulted : seen.faulted k = faulted := by
      simp only [State.faulted, faulted, seen, x, base, State.setTree_tree, State.setTree_round, hcarried]
    rw [← hfaulted]
    refine ⟨fun h => ?_, fun o ho => ⟨fun hk => ?_, fun hk hp hfull => ?_⟩⟩
    · rw [State.takeHeldPacket_of_none (s := seen.faulted k) h]
    · subst hk
      rw [State.takeHeldPacket_heldPacket (s := seen.faulted o.tree) ho (.inr State.faulted_tree)]
    · have hother : (seen.faulted k).tree o.tree = s.tree o.tree :=
        (State.faulted_tree_ne hk).trans (State.setTree_tree_ne s _ hk)
      rw [State.takeHeldPacket_of_full (s := seen.faulted k) ho (hother.symm ▸ hp) (hother.symm ▸ hfull)]

end Sys2Proof.Machine
end

section
/-! PROOFS. The light of a call window (O18) and of a probe window (O19). -/

namespace Sys2Proof.Machine

variable {s : State} {k : TreeId}

theorem List.find?_eq_some_of_unique {α : Type} {p : α → Bool} {l : List α} {a : α} (ha : a ∈ l) (hp : p a = true)
    (hu : ∀ x ∈ l, p x = true → x = a) : l.find? p = some a := by
  cases h : l.find? p with
  | none => exact absurd hp (List.find?_eq_none.1 h a ha)
  | some x => rw [hu x (List.mem_of_find?_eq_some h) (List.find?_some h)]

/-! ## The light of a window (R47, R54) -/

/-- The stretches of light that have light in a window. -/
theorem windowStretches_eq {groups : List (List Burst)} (h : InStretches groups) (w : WindowRecord) :
    windowStretches w groups.flatten = groups.filter fun x => x.any fun b =>
      b.start < 32 * ((w.opening : Int) + w.width) ∧ 32 * (w.opening : Int) < b.stop := by
  rw [windowStretches, stretches_flatten groups h]
  refine List.filter_congr fun x _ => congrArg (List.any x) (funext fun b => ?_)
  rw [Bool.decide_and]
  rfl

/-- A stretch of one burst that is clean for a type. -/
theorem cleanBurst_one (w : WindowRecord) (type : Nat) (b : Burst) :
    cleanBurst w type [b] =
      if 32 * (w.opening : Int) ≤ b.start ∧ b.stop ≤ 32 * ((w.opening : Int) + w.width) ∧ b.checkOk = true ∧ b.type = type
      then some b else none := by
  have hiff : (burstWholly b w && b.checkOk && b.type == type) = true ↔
      32 * (w.opening : Int) ≤ b.start ∧ b.stop ≤ 32 * ((w.opening : Int) + w.width) ∧ b.checkOk = true ∧ b.type = type := by
    simp only [burstWholly, Bool.and_eq_true, decide_eq_true_eq, beq_iff_eq, and_assoc]
    rfl
  simp only [cleanBurst, hiff]

theorem cleanBurst_eq (w : WindowRecord) (type : Nat) (x : List Burst) :
    cleanBurst w type x =
      match x with
      | [b] =>
        if 32 * (w.opening : Int) ≤ b.start ∧ b.stop ≤ 32 * ((w.opening : Int) + w.width) ∧ b.checkOk = true ∧ b.type = type
        then some b else none
      | _ => none := by
  match x with
  | [] => rfl
  | [b] => exact cleanBurst_one w type b
  | _ :: _ :: _ => rfl

/-- The window of a round, where the tree has no other of that round. -/
theorem Engine.find_window {g : Engine} {w : WindowRecord} {n : Round} (hw : w ∈ g.windows) (hn : w.round = n)
    (hu : ∀ x ∈ g.windows, x.round = n → x = w) : g.windows.find? (fun w => w.round = n) = some w :=
  List.find?_eq_some_of_unique hw (decide_eq_true hn) fun x hx h => hu x hx (of_decide_eq_true h)

/-! ## Call windows (R47) -/

theorem State.callWindow_of_none (light : List Burst)
    (h : ∀ w ∈ (s.tree k).engine.windows, ¬ (w.round = s.round ∧ w.kind = .call)) : s.callWindow k light = s := by
  have hfind : (s.tree k).engine.windows.find? (fun w => w.round = s.round ∧ w.kind = .call) = none :=
    List.find?_eq_none.2 fun w hw => by simpa using h w hw
  simp only [State.callWindow, hfind]

theorem State.callWindow_of_window {w : WindowRecord} {groups : List (List Burst)} (hw : w ∈ (s.tree k).engine.windows)
    (hn : w.round = s.round) (hcall : w.kind = .call) (hu : ∀ x ∈ (s.tree k).engine.windows, x.round = s.round → x = w)
    (hgroups : InStretches groups) :
    let found := groups.filter fun x => x.any fun b =>
      b.start < 32 * ((w.opening : Int) + w.width) ∧ 32 * (w.opening : Int) < b.stop
    let clean := found.filterMap (cleanBurst w 2)
    s.callWindow k groups.flatten =
      ((clean.take 8).foldl (fun u b => u.announce k b.serial b.token)
        (s.addCollisions k (found.length - clean.length))).releaseWindow k s.round := by
  have hfind : (s.tree k).engine.windows.find? (fun w => w.round = s.round ∧ w.kind = .call) = some w :=
    List.find?_eq_some_of_unique hw (decide_eq_true ⟨hn, hcall⟩) fun x hx h => hu x hx (of_decide_eq_true h).1
  simp only [State.callWindow, hfind, windowStretches_eq hgroups]

/-! ## Probe windows (R54 to R56) -/

theorem State.probeWindow_of_none (light : List Burst)
    (h : ∀ w ∈ (s.tree k).engine.windows, w.round = s.round → w.kind = .call) : s.probeWindow k light = s := by
  unfold State.probeWindow
  split
  · rfl
  · rename_i w hfind
    have hcall := h w (List.mem_of_find?_eq_some hfind) (by simpa using List.find?_some hfind)
    simp only [hcall]

/-- The echoes of a window: the clean bursts of type 3 with the probed serial (R54). -/
def echoesIn (w : WindowRecord) (serial : Serial) (found : List (List Burst)) : List Burst :=
  found.filterMap fun x => match x with
    | [b] =>
      if 32 * (w.opening : Int) ≤ b.start ∧ b.stop ≤ 32 * ((w.opening : Int) + w.width) ∧ b.checkOk = true ∧
        b.type = 3 ∧ b.serial = serial
      then some b else none
    | _ => none

/-- The echo that counts is the first (log entry 20). -/
theorem find_echo (w : WindowRecord) (serial : Serial) (found : List (List Burst)) :
    (found.filterMap (cleanBurst w 3)).find? (fun b => b.serial = serial) = (echoesIn w serial found).head? := by
  rw [← List.head?_filter, List.filter_filterMap]
  refine congrArg (fun f => (List.filterMap f found).head?) (funext fun x => ?_)
  match x with
  | [] => rfl
  | [b] =>
    rw [cleanBurst_one]
    by_cases hs : b.serial = serial
    · simp only [hs, and_true]
      split <;> simp [hs]
    · simp only [hs, and_false, if_false]
      split <;> simp [hs]
  | _ :: _ :: _ => rfl

section
variable {w : WindowRecord} {groups : List (List Burst)} {tag : Nat} {serial : Serial} {occupied : Round}
  (hw : w ∈ (s.tree k).engine.windows) (hn : w.round = s.round) (hprobe : w.kind = .probe tag serial occupied)
  (hu : ∀ x ∈ (s.tree k).engine.windows, x.round = s.round → x = w) (hgroups : InStretches groups)

/-- The stretches of light within a window. -/
def stretchesIn (w : WindowRecord) (groups : List (List Burst)) : List (List Burst) :=
  groups.filter fun x => x.any fun b =>
    b.start < 32 * ((w.opening : Int) + w.width) ∧ 32 * (w.opening : Int) < b.stop

/-- The part with the collisions of a probe window counted: every stretch but the echo (R54). -/
def State.probeCounted (s : State) (k : TreeId) (w : WindowRecord) (serial : Serial) (groups : List (List Burst)) : State :=
  s.setTree k { s.tree k with engine := { (s.tree k).engine with
    collisions := min 4294967295 ((s.tree k).engine.collisions +
      ((stretchesIn w groups).length - (if echoesIn w serial (stretchesIn w groups) = [] then 0 else 1))) } }

include hw hn hprobe hu hgroups

theorem State.probeWindow_of_window :
    s.probeWindow k groups.flatten =
      (if s.stillProbed k tag occupied then
        match (echoesIn w serial (stretchesIn w groups)).head? with
        | some b => (s.probeCounted k w serial groups).takeEcho k tag (b.start - w.opens).toNat
        | none => (s.probeCounted k w serial groups).noEcho k tag
      else s.probeCounted k w serial groups).releaseWindow k s.round := by
  have hcounted : s.addCollisions k ((stretchesIn w groups).length -
      if (echoesIn w serial (stretchesIn w groups)).head?.isSome then 1 else 0) = s.probeCounted k w serial groups := by
    rw [State.probeCounted]
    cases echoesIn w serial (stretchesIn w groups) <;> rfl
  have hfound : windowStretches w groups.flatten = stretchesIn w groups := windowStretches_eq hgroups w
  simp only [State.probeWindow, Engine.find_window hw hn hu, hprobe, hfound, find_echo, hcounted]
    <;> rfl

end

section
variable {tag : Nat} {e : Entry} {f : Heard} (he : s.entry k tag = some e) (hf : e.body = .heard f)
include he hf

theorem State.failEnrolment_of_heard (reason : FailReason) (trip : Option Nat) :
    s.failEnrolment k tag reason trip =
      match f.keptDelay with
      | none => (s.vacate k tag).raise k (.enrolFailed k tag e.serial reason none trip false)
      | some d =>
        (s.setEntry k tag { e with owed := Owed.none, body := .silent { e := d, hushed := false } }).raise k
          (.enrolFailed k tag e.serial reason none trip true) := by
  cases hd : f.keptDelay <;> simp only [State.failEnrolment, he, Entry.failEnrolment, hf, hd]

theorem State.noEcho_of_heard :
    s.noEcho k tag =
      if f.tries < 2 then s.setEntry k tag { e with body := .heard { f with tries := f.tries + 1 } }
      else s.failEnrolment k tag .noEcho none := by
  by_cases ht : f.tries < 2
  · simp only [State.noEcho, he, hf, if_neg (show ¬ 3 ≤ f.tries + 1 by omega), if_pos ht]
  · simp only [State.noEcho, he, hf, if_pos (show 3 ≤ f.tries + 1 by omega), if_neg ht]

theorem State.takeEcho_of_heard (hroster : Store.Wf s.roster) (hdrop : e.owed.drop = false) (lag : Nat) :
    s.takeEcho k tag lag =
      if (s.tree k).settings.nearBound + lag ≤ (s.tree k).settings.target then
        s.setEntry k tag { e with
          owed := { e.owed with assign := true }
          body := .timed { e := (s.tree k).settings.target - ((s.tree k).settings.nearBound + lag), former := f.keptDelay,
                           misses := 0, hushed := false } }
      else s.failEnrolment k tag .outOfReach (some ((s.tree k).settings.nearBound + lag)) := by
  have htimed : ∀ d, (e.toTimed d).getD e = { e with
      owed := { e.owed with assign := true }
      body := .timed { e := d, former := f.keptDelay, misses := 0, hushed := false } } := fun d => by
    simp only [Entry.toTimed, hf, Option.getD_some, Entry.owe, Owed.add, hdrop, Bool.false_eq_true, if_false]
  rw [State.takeEcho]
  simp only [State.modEntry_of_entry hroster he, htimed]

theorem State.stillProbed_of_heard {occupied : Round} (ho : e.occupied = occupied) : s.stillProbed k tag occupied = true := by
  simp [State.stillProbed, he, ho, Entry.state, hf]

end

theorem State.stillProbed_eq_false {tag : Nat} {occupied : Round}
    (h : ∀ e : Entry, s.entry k tag = some e → e.occupied ≠ occupied ∨ e.state ≠ .heard) :
    s.stillProbed k tag occupied = false := by
  cases he : s.entry k tag with
  | none => simp only [State.stillProbed, he]
  | some e =>
    rw [← Bool.not_eq_true]
    simp only [State.stillProbed, he, Bool.and_eq_true, beq_iff_eq]
    exact fun hc => (h e he).elim (absurd hc.1) (absurd hc.2)

/-- Settles O19, by the window, the probed entry and the echo. -/
theorem probeJudged : Obligations.ProbeJudged := by
  intro s k light hs
  refine ⟨fun h => congrArg Host.Outcome.next (State.probeWindow_of_none light h),
    fun w groups tag serial occupied hw hn hprobe hu hgroups hlight => ?_⟩
  subst hlight
  have hwindow := State.probeWindow_of_window hw hn hprobe hu hgroups
  have hexec : exec (.probeWindowEnd k groups.flatten) s = .next (s.probeWindow k groups.flatten) := rfl
  intro found echoes counted gives
  have hgives : ∀ t : State, s.probeWindow k groups.flatten = t.releaseWindow k s.round → gives t := fun t ht =>
    hexec.trans (congrArg Host.Outcome.next ht)
  have hroster : Store.Wf counted.roster := hs.1
  refine ⟨fun hno => hgives _ ?_, fun e f he ho hf hdrop => ?_⟩
  · rw [hwindow, State.stillProbed_eq_false hno, if_neg (by decide)]
    rfl
  · rw [State.stillProbed_of_heard he hf ho, if_pos rfl] at hwindow
    have hfail := State.failEnrolment_of_heard (s := counted) he hf
    have hnoEcho := State.noEcho_of_heard (s := counted) he hf
    refine ⟨fun b others lag hb hstart => ?_, fun hb ht => hgives _ ?_, fun hb ht => hgives _ ?_⟩
    · have hhead : (echoesIn w serial (stretchesIn w groups)).head? = some b := congrArg List.head? hb
      have hlag : (b.start - w.opens).toNat = lag := by
        rw [hstart, WindowRecord.opens]
        omega
      have hecho := State.takeEcho_of_heard (s := counted) he hf hroster hdrop lag
      have htree : (counted.tree k).settings = (s.tree k).settings := by rw [State.setTree_tree]
      rw [htree] at hecho
      simp only [hhead, hlag] at hwindow
      refine ⟨fun hin => hgives _ ?_, fun hout => hgives _ ?_⟩
      · rw [hwindow]
        exact congrArg (State.releaseWindow · k s.round) (hecho.trans (if_pos hin))
      · rw [hwindow]
        exact congrArg (State.releaseWindow · k s.round) ((hecho.trans (if_neg (Nat.not_le.2 hout))).trans (hfail _ _))
    · have hhead : (echoesIn w serial (stretchesIn w groups)).head? = none := congrArg List.head? hb
      rw [hhead] at hwindow
      rw [hwindow]
      exact congrArg (State.releaseWindow · k s.round) (hnoEcho.trans (if_pos ht))
    · have hhead : (echoesIn w serial (stretchesIn w groups)).head? = none := congrArg List.head? hb
      rw [hhead] at hwindow
      rw [hwindow]
      exact congrArg (State.releaseWindow · k s.round) ((hnoEcho.trans (if_neg (Nat.not_lt.2 ht))).trans (hfail _ _))

/-! ## Announcements (R48 to R51) -/

section
variable {serial : Serial} {tag : Nat} {e : Entry} {j : TreeId}

/-- A serial that no slot holds has no holder (R34). -/
theorem State.holderOf_eq_none (hs : StoresCanonical s)
    (h : ∀ (j : TreeId) (tag : Nat) (e : Entry), tagOk tag = true → s.entry j tag = some e → e.serial ≠ serial) :
    s.holderOf serial = none := by
  obtain ⟨hw, -, -, -, hslots, -⟩ := hs
  have hfind : s.roster.find? (fun x => x.2.serial = serial) = none := by
    refine List.find?_eq_none.2 fun x hx => ?_
    have hlt : slotTree x.1 < 4 := by
      have := hslots x hx
      simp only [slotTree]
      omega
    have hslot : x.1 = slotOf ⟨slotTree x.1, hlt⟩ (slotTag x.1) := by
      simp only [slotOf, slotTree, slotTag]
      omega
    simpa using h _ _ _ (tagOk_slotTag x.1) (State.entry_of_mem hw hx hslot)
  simp only [State.holderOf, hfind]

/-- The holder of a serial is the slot that holds it (R34). -/
theorem State.holderOf_of_entry (hs : RosterSound s) (h : tagOk tag = true) (he : s.entry j tag = some e) (hserial : e.serial = serial) :
    s.holderOf serial = some (j, tag, e) := by
  obtain ⟨⟨hw, -⟩, huniq⟩ := hs
  have hmem : (slotOf j tag, e) ∈ s.roster := Store.mem_of_read he
  have hfind : s.roster.find? (fun x => x.2.serial = serial) = some (slotOf j tag, e) := by
    refine List.find?_eq_some_of_unique hmem (decide_eq_true hserial) fun x hx hsx => ?_
    by_contra hne
    have hsymm : Std.Symm fun a b : Nat × Entry => a.2.serial ≠ b.2.serial := ⟨fun _ _ => Ne.symm⟩
    have hdiff := huniq.forall hx hmem hne
    exact hdiff ((of_decide_eq_true hsx).trans hserial.symm)
  obtain ⟨htree, htag, -⟩ := slot_of_slotOf (t := j) h
  simp only [State.holderOf, hfind, htree, treeOf_val, htag]

theorem State.lowestVacant_eq_none (h : ∀ tag : Nat, tagOk tag = true → (s.entry k tag).isSome) : s.lowestVacant k = none := by
  refine List.find?_eq_none.2 fun tag htag => ?_
  have hrange : 1 ≤ tag ∧ tag < 1 + 128 := List.mem_range'_1.1 htag
  have hsome := h tag (tagOk_eq_true_iff.2 (by omega))
  rw [Option.isSome_iff_exists] at hsome
  obtain ⟨e, he⟩ := hsome
  simp [he]

theorem State.lowestVacant_eq_some (h : tagOk tag = true) (hn : s.entry k tag = none)
    (hlow : ∀ tag' : Nat, tagOk tag' = true → tag' < tag → (s.entry k tag').isSome) : s.lowestVacant k = some tag := by
  obtain ⟨hlo, hhi⟩ := tagOk_eq_true_iff.1 h
  have hsplit : allTags = List.range' 1 (tag - 1) ++ tag :: List.range' (tag + 1) (128 - tag) := by
    have h1 : allTags = List.range' 1 (tag - 1) ++ List.range' (1 + (tag - 1)) (129 - tag) := by
      rw [List.range'_append_1, allTags]
      congr 1
      omega
    have h2 : 1 + (tag - 1) = tag := by omega
    have h3 : 129 - tag = (128 - tag) + 1 := by omega
    rw [h1, h2, h3, List.range'_succ]
  have hfront : (List.range' 1 (tag - 1)).find? (fun tag => (s.entry k tag).isNone) = none := by
    refine List.find?_eq_none.2 fun tag' htag' => ?_
    have hrange := List.mem_range'_1.1 htag'
    have hsome := hlow tag' (tagOk_eq_true_iff.2 (by omega)) (by omega)
    simpa [Option.isSome_iff_ne_none] using hsome
  rw [State.lowestVacant, hsplit, List.find?_append, hfront, Option.none_or, List.find?_cons_of_pos (by simp [hn])]

theorem State.admissionTest_eq :
    s.admissionTest serial k =
      match Store.read serial.toNat s.admissions with
      | some r => if r.tree = none ∨ r.tree = some k then some r.contract else none
      | none => if s.openMode then some { c := 0, p := (s.tree k).settings.defaultPeak, w := 1 } else none := by
  unfold State.admissionTest
  cases Store.read serial.toNat s.admissions with
  | none => rfl
  | some r => cases ht : r.tree <;> simp [ht]

/-- The contract and the mark that the commitment clamp gives (R50). -/
theorem State.clampContract_eq (v : Contract) :
    let cut : Bool := 0 < v.c ∧ 1875 < s.bookingSum k + (v.c + (s.tree k).settings.overhead) +
      (s.tree k).bookedCall + (s.tree k).bookedDark
    s.clampContract k v = (if cut then { v with c := 0 } else v, cut) := by
  intro cut
  by_cases hfits : v.c = 0 ∨ s.bookingSum k + (v.c + (s.tree k).settings.overhead) + (s.tree k).bookedCall +
    (s.tree k).bookedDark ≤ roundQuanta
  · have hcut : cut = false := decide_eq_false (by rw [roundQuanta] at hfits; omega)
    simp only [State.clampContract, if_pos hfits, hcut, Bool.false_eq_true, if_false]
  · have hcut : cut = true := decide_eq_true (by rw [roundQuanta] at hfits; omega)
    simp only [State.clampContract, if_neg hfits, hcut, if_true]

section
variable (token : Token)

theorem State.announce_unheld (h : s.holderOf serial = none) :
    (s.admissionTest serial k = none → s.announce k serial token = s.raise k (.stranger serial token k)) ∧
    ∀ v : Contract, s.admissionTest serial k = some v →
      (s.lowestVacant k = none →
        s.announce k serial token = s.raise k (.enrolFailed k 0 serial .treeFull (some token) none false)) ∧
      ∀ tag, s.lowestVacant k = some tag →
        s.announce k serial token = (s.setEntry k tag (newHeard serial s.round (s.clampContract k v).1)).raise k
          (.homeHeard k tag serial token false (s.clampContract k v).2) :=
  ⟨fun ha => by simp only [State.announce, h, ha],
    fun v ha => ⟨fun hv => by simp only [State.announce, h, ha, hv], fun tag hv => by simp only [State.announce, h, ha, hv]⟩⟩

theorem State.announce_reEnrol {f : Silent} (h : s.holderOf serial = some (k, tag, e)) (hf : e.body = .silent f) :
    s.announce k serial token = (s.setEntry k tag
      { e with owed := Owed.none
               body := .heard { heardRound := s.round, tries := 0, keptDelay := some f.e } }).raise k
      (.homeHeard k tag serial token true false) := by
  simp only [State.announce, h, if_true, Entry.reEnrol, hf]

theorem State.announce_clash (h : s.holderOf serial = some (j, tag, e)) (hno : j ≠ k ∨ e.state ≠ .silent) :
    s.announce k serial token = s.raise k (.serialClash serial token k j tag e.state) := by
  have hnone : (if j = k then e.reEnrol s.round else none) = none := by
    split
    · rename_i hj
      have hstate := hno.resolve_left (not_not.2 hj)
      obtain ⟨_, _, _, _, _, _, body⟩ := e
      cases body <;> first | rfl | exact absurd rfl hstate
    · rfl
  simp only [State.announce, h, hnone]

end

end

/-! ## One clean announcement alone -/

/-- A part whose tree has had its call window. -/
def State.called (s : State) (k : TreeId) : State :=
  s.setTree k { s.tree k with engine := { (s.tree k).engine with windows := [] } }

section
variable {w : WindowRecord} {b : Burst} (hwindows : (s.tree k).engine.windows = [w]) (hn : w.round = s.round)
include hwindows hn

/-- Of the one window of a tree no record stays, whatever the announcement did to other registers. -/
theorem State.releaseWindow_of_one {t : State} (ht : t.tree k = s.tree k) :
    t.releaseWindow k s.round = t.setTree k { s.tree k with engine := { (s.tree k).engine with windows := [] } } := by
  have hnone : ((s.tree k).engine.windows.filter fun w => w.round ≠ s.round) = [] := by
    rw [hwindows, List.filter_singleton]
    simp [hn]
  simp only [State.releaseWindow, State.modEngine, State.modTree, ht, hnone]

/-- A call window with one clean announcement in it and no other light. -/
theorem State.callWindow_of_announcement (hcall : w.kind = .call) (hstart : 32 * (w.opening : Int) ≤ b.start)
    (hburst : b.start < b.stop) (hstop : b.stop ≤ 32 * ((w.opening : Int) + w.width)) (hcheck : b.checkOk = true)
    (htype : b.type = 2) (hcount : (s.tree k).engine.collisions ≤ 4294967295) :
    s.callWindow k [b] = (s.announce k b.serial b.token).releaseWindow k s.round := by
  have hgroups : InStretches [[b]] := by
    refine ⟨fun x hx => ?_, fun x hx front back c hsplit hfront => ?_, List.pairwise_singleton _ _⟩
    · obtain rfl := List.mem_singleton.1 hx
      exact ⟨nofun, fun c hc => by rwa [List.mem_singleton.1 hc]⟩
    · obtain rfl := List.mem_singleton.1 hx
      have hlength := congrArg List.length hsplit
      have hpos := List.length_pos_of_ne_nil hfront
      simp only [List.length_append, List.length_cons, List.length_nil] at hlength
      omega
  have hwithin : b.start < 32 * ((w.opening : Int) + w.width) ∧ 32 * (w.opening : Int) < b.stop := by omega
  have hclean : cleanBurst w 2 [b] = some b := by
    rw [cleanBurst_one, if_pos ⟨hstart, hstop, hcheck, htype⟩]
  have hcounted : s.addCollisions k 0 = s := by
    have hmin : min maxCount (s.tree k).engine.collisions = (s.tree k).engine.collisions := Nat.min_eq_right hcount
    rw [State.addCollisions, State.modEngine, State.modTree, Nat.add_zero, hmin]
    exact congrArg (fun x => { s with trees := x }) (Quad.set_get s.trees k)
  have hwindow := State.callWindow_of_window (k := k) (w := w) (groups := [[b]]) (by simp [hwindows]) hn hcall
    (by simp [hwindows]) hgroups
  simpa [hwithin, hclean, hcounted] using hwindow

end

/-- Settles O18: one clean announcement by case, then the light of any call window by stretches. The clauses about a serial that
a slot holds stand under the premise that none does; they are shown here without it. -/
theorem announcementJudged : Obligations.AnnouncementJudged := by
  refine ⟨fun s k w b hs hwindows hn hcall hstart hburst hstop hcheck htype hcount => ?_, fun s k light =>
    ⟨fun h => congrArg Host.Outcome.next (State.callWindow_of_none light h), fun w groups hw hn hcall hu hgroups hlight => ?_⟩⟩
  · intro heard gives
    have hwindow := State.callWindow_of_announcement hwindows hn hcall hstart hburst hstop hcheck htype hcount
    have hgives : ∀ {t t' : State}, s.announce k b.serial b.token = t → t.tree k = s.tree k →
        t.setTree k { s.tree k with engine := { (s.tree k).engine with windows := [] } } = t' → gives t' := by
      intro t t' ha ht ht'
      rw [ha, State.releaseWindow_of_one hwindows hn ht, ht'] at hwindow
      exact congrArg Host.Outcome.next hwindow
    refine fun hunheld => ⟨fun c hc => ?_, fun j tag e htag he hserial => ?_⟩
    · obtain ⟨hstranger, hadmitted⟩ := State.announce_unheld (k := k) b.token (State.holderOf_eq_none hs.1 hunheld)
      have htest : s.admissionTest b.serial k = c := State.admissionTest_eq.trans hc.symm
      refine ⟨fun hnone => hgives (hstranger (htest.trans hnone)) rfl rfl, fun v hv => ?_⟩
      obtain ⟨hfull, hnew⟩ := hadmitted v (htest.trans hv)
      refine ⟨fun hall => hgives (hfull (State.lowestVacant_eq_none hall)) rfl rfl, fun tag htag hvacant hlow => ?_⟩
      have hhome := hnew tag (State.lowestVacant_eq_some htag hvacant hlow)
      rw [State.clampContract_eq] at hhome
      exact hgives hhome rfl rfl
    · have hholder := State.holderOf_of_entry hs htag he hserial
      refine ⟨fun f hj hf => ?_, fun hno => hgives (State.announce_clash b.token hholder hno) rfl rfl⟩
      subst hj
      exact hgives (State.announce_reEnrol b.token hholder hf) rfl rfl
  · subst hlight
    have hwindow := State.callWindow_of_window hw hn hcall hu hgroups
    refine congrArg Host.Outcome.next (hwindow.trans ?_)
    simp only [cleanBurst_eq]
    rfl

end Sys2Proof.Machine
end

section
/-! PROOFS. Light supervision: how a hunt begins (O36), how a suspect leaves it (O38), and what stray light (O33) and dark windows
bring (O35, O37). -/

namespace Sys2Proof.Machine

variable {s : State} {k : TreeId}

/-! ## The end of a hunt, and its record -/

/-- A hunt that ends UNRESOLVED, whichever of notice and record comes first (R140). -/
theorem State.unresolved_eq {reason : HuntReason} (hr : reason.after = .unresolved) (h : Hunt) (c : Option Nat) :
    s.unresolved k h reason c = huntUnresolved s k h reason c := by
  rw [huntUnresolved, ← hr]
  rfl

theorem State.setHunt_eq (h : Hunt) : s.setHunt k h = huntGoesOn s k h := rfl

theorem State.hunting_eq_false (h : ∀ h : Hunt, (s.tree k).light.suspicion ≠ .hunt h) : s.hunting k = false := by
  unfold State.hunting State.huntOf
  split
  · rename_i h' hs
    exact absurd hs (h h')
  · rfl

theorem State.huntOf_of_hunt {h : Hunt} (hs : (s.tree k).light.suspicion = .hunt h) : s.huntOf k = some h := by
  simp only [State.huntOf, hs]

/-! ## A suspect leaves a hunt (R139) -/

section
variable {h : Hunt} (hs : (s.tree k).light.suspicion = .hunt h) (tag : Nat)
include hs

theorem State.leaveHunt_of_search {group : List Nat} (hp : h.phase = .search group) :
    let woken := s.modEntry k tag fun e => if e.hushed then e.owe .wake else e
    let list := h.suspects.filter fun x => x ≠ tag
    let rest := group.filter fun x => x ≠ tag
    s.leaveHunt k tag =
      if tag ∈ h.suspects then
        if list = [] then huntUnresolved woken k h .empty none
        else if rest = [] ∨ (∀ x ∈ list, x ∈ rest) then woken.formStep k h list
        else huntGoesOn woken k { h with suspects := list, phase := .search rest }
      else s := by
  intro woken list rest
  have hwoken : s.modEntry k tag Entry.wake = woken := rfl
  simp only [State.leaveHunt, State.huntOf_of_hunt hs, hp, hwoken, State.unresolved_eq (reason := .empty) rfl, State.setHunt_eq,
    List.all_eq_true, decide_eq_true_eq]
  rfl

theorem State.leaveHunt_of_trial {c : Nat} (hp : h.phase = .trial c) :
    s.leaveHunt k tag = if tag = c then huntUnresolved s k h .empty (some c) else s := by
  simp only [State.leaveHunt, State.huntOf_of_hunt hs, hp, State.unresolved_eq (reason := .empty) rfl]

theorem State.leaveHunt_of_allQuiet {c : Nat} {quiet : List Nat} (hp : h.phase = .allQuiet c quiet) :
    s.leaveHunt k tag =
      if tag = c then huntUnresolved s k h .empty (some c)
      else if tag ∈ quiet then
        huntGoesOn (s.modEntry k tag fun e => if e.hushed then e.owe .wake else e) k
          { h with phase := .allQuiet c (quiet.filter fun x => x ≠ tag) }
      else s := by
  simp only [State.leaveHunt, State.huntOf_of_hunt hs, hp, State.unresolved_eq (reason := .empty) rfl]
  rfl

end

/-- Settles O38, by the phase of the hunt. -/
theorem suspectLeavesHunt : Obligations.SuspectLeavesHunt := by
  intro s k tag woken
  refine ⟨fun h => State.leaveHunt_of_not_hunting s k tag (State.hunting_eq_false h), fun h hs =>
    ⟨fun group hp => ?_, fun c hp => ?_, fun c quiet hp => ?_⟩⟩
  · intro list rest
    have hleave := State.leaveHunt_of_search hs tag hp
    refine ⟨fun ht => hleave.trans (if_neg ht), fun ht hl => ?_, fun ht hl hr => ?_, fun ht hr hx => ?_⟩
    · exact hleave.trans ((if_pos ht).trans (if_pos hl))
    · exact hleave.trans ((if_pos ht).trans ((if_neg hl).trans (if_pos hr)))
    · obtain ⟨x, hx, hxr⟩ := hx
      have hl : list ≠ [] := List.ne_nil_of_mem hx
      have hno : ¬ (rest = [] ∨ ∀ x ∈ list, x ∈ rest) := fun hc => hc.elim hr fun hall => hxr (hall x hx)
      exact hleave.trans ((if_pos ht).trans ((if_neg hl).trans (if_neg hno)))
  · have hleave := State.leaveHunt_of_trial hs tag hp
    exact ⟨fun ht => hleave.trans (if_pos ht), fun ht => hleave.trans (if_neg ht)⟩
  · have hleave := State.leaveHunt_of_allQuiet hs tag hp
    exact ⟨fun ht => hleave.trans (if_pos ht), fun ht hq => hleave.trans ((if_neg ht).trans (if_pos hq)),
      fun ht hq => hleave.trans ((if_neg ht).trans (if_neg hq))⟩

/-! ## A step of a hunt is formed (R132, R136) -/

/-- What verification makes of an entry: hushed ones are woken, and the ACTIVE candidate is trial-fenced (R136). -/
theorem Entry.trialFenced_eq (e : Entry) (tag c : Nat) :
    (if tag = c then (e.wake.superviseFence true).getD e.wake else e.wake) =
      let woken := if e.hushed then e.owe .wake else e
      match woken.body with
      | .active f =>
        if tag = c then
          { woken with body := .fenced { e := f.e, need := f.need, credit := f.credit, lastGranted := f.lastGranted
                                         history := f.history, hushed := f.hushed, trial := true } }.owe .fence
        else woken
      | _ => woken := by
  have hwake : (if e.hushed then e.owe .wake else e) = e.wake := rfl
  simp only [hwake]
  generalize e.wake = woken
  obtain ⟨serial, occupied, contract, booked, capped, owed, body⟩ := woken
  by_cases ht : tag = c
  · simp only [if_pos ht]
    cases body <;> rfl
  · simp only [if_neg ht]
    cases body <;> rfl

theorem State.beginTrial_eq (h : Hunt) {c : Nat} (hc : tagOk c = true) :
    s.beginTrial k h c =
      huntGoesOn (s.modTreeEntries k fun tag e =>
          let woken := if e.hushed then e.owe .wake else e
          match woken.body with
          | .active f =>
            if tag = c then
              { woken with body := .fenced { e := f.e, need := f.need, credit := f.credit, lastGranted := f.lastGranted
                                             history := f.history, hushed := f.hushed, trial := true } }.owe .fence
            else woken
          | _ => woken) k
        { h with phase := .trial c, suspects := [c], effective := none, darkRun := 0 } := by
  have hroster : (s.modTreeEntries k fun _ e => e.wake).modEntry k c (fun e => (e.superviseFence true).getD e) =
      s.modTreeEntries k fun tag e => if tag = c then (e.wake.superviseFence true).getD e.wake else e.wake := by
    simp only [State.modEntry, State.modTreeEntries, Store.modify, List.map_map]
    refine congrArg (fun r => { s with roster := r }) (List.map_congr_left fun x _ => ?_)
    have hslot := eq_slotOf_iff (k := k) hc x.1
    by_cases ht : slotTree x.1 = k.val <;> by_cases hg : slotTag x.1 = c <;> simp [Function.comp, hslot, ht, hg]
  rw [State.beginTrial]
  simp only [hroster, Entry.trialFenced_eq]
  rfl

theorem State.searchStep_eq (h : Hunt) (list : List Nat) :
    s.searchStep k h list =
      huntGoesOn (s.modTreeEntries k fun tag e =>
          if tag ∈ list.take ((list.length + 1) / 2) then
            if e.hushed = false then (e.setHushed true).owe .hush else if e.owed.wake then e.owe .hush else e
          else if tag ∈ list ∧ e.hushed then e.owe .wake else e) k
        { h with phase := .search (list.take ((list.length + 1) / 2)), suspects := list, effective := none, darkRun := 0 } := by
  have hentry : ∀ (tag : Nat) (e : Entry),
      (if tag ∈ firstHalf list then e.hush else if tag ∈ list then e.wake else e) =
        if tag ∈ list.take ((list.length + 1) / 2) then
          if e.hushed = false then (e.setHushed true).owe .hush else if e.owed.wake then e.owe .hush else e
        else if tag ∈ list ∧ e.hushed then e.owe .wake else e := by
    intro tag e
    rw [firstHalf]
    cases hh : e.hushed <;> by_cases hl : tag ∈ list <;> simp [Entry.hush, Entry.wake, hh, hl]
  simp only [State.searchStep, hentry]
  rfl

theorem State.formStep_of_two {list : List Nat} (hl : 2 ≤ list.length) (h : Hunt) : s.formStep k h list = s.searchStep k h list := by
  match list, hl with
  | _ :: _ :: _, _ => rfl

theorem huntGoesOn_modTreeEntries (y : Tree) (h : Hunt) (f : Nat → Entry → Entry) :
    huntGoesOn ((s.setTree k y).modTreeEntries k f) k h =
      (s.setTree k { y with light := { y.light with suspicion := .hunt h } }).modTreeEntries k f := by
  have htree : ((s.setTree k y).modTreeEntries k f).tree k = y := Quad.get_set_self s.trees k y
  rw [huntGoesOn, htree]
  exact congrArg (fun u : State => u.modTreeEntries k f) (s.setTree_setTree y _)

/-- A hunt goes on with its record, whatever suspicion stood before it. -/
theorem huntGoesOn_setTree (x : Tree) (sus : Suspicion) (h : Hunt) (f : Nat → Entry → Entry) :
    huntGoesOn ((s.setTree k { x with light := { x.light with suspicion := sus } }).modTreeEntries k f) k h =
      huntGoesOn ((s.setTree k x).modTreeEntries k f) k h := by
  rw [huntGoesOn_modTreeEntries, huntGoesOn_modTreeEntries]

/-- A step formed of a list that is not empty depends on no suspicion before it. -/
theorem State.formStep_setTree {list : List Nat} (hl : list ≠ []) (hok : ∀ c ∈ list, tagOk c = true) (x : Tree) (sus : Suspicion)
    (h : Hunt) : (s.setTree k { x with light := { x.light with suspicion := sus } }).formStep k h list =
      (s.setTree k x).formStep k h list := by
  match list, hl with
  | [c], _ =>
    rw [State.formStep_one, State.formStep_one, State.beginTrial_eq h (hok c List.mem_cons_self),
      State.beginTrial_eq h (hok c List.mem_cons_self)]
    exact huntGoesOn_setTree x sus _ _
  | a :: b :: rest, _ =>
    rw [State.formStep_more, State.formStep_more, State.searchStep_eq, State.searchStep_eq]
    exact huntGoesOn_setTree x sus _ _

/-! ## A hunt begins (R131, R141) -/

theorem State.activeTags_tagOk : ∀ c ∈ s.activeTags k, tagOk c = true := by
  intro c hc
  obtain ⟨x, hx, he⟩ := List.mem_filterMap.1 hc
  split at he
  · obtain rfl := Option.some.inj he
    exact State.treeEntries_tagOk hx
  · cases he

theorem beginHunt_spec (s : State) (k : TreeId) :
    (s.activeTags k = [] → s.beginHunt k = huntUnresolved s k (s.firstHunt k) .foreign none) ∧
    (s.activeTags k ≠ [] → s.beginHunt k =
      (s.setTree k { s.tree k with light := { (s.tree k).light with observations := [] } }).formStep k (s.firstHunt k)
        (s.activeTags k)) := by
  refine ⟨fun hnone => ?_, fun hsome => ?_⟩
  · rw [State.beginHunt_of_none hnone]
    rfl
  · rw [State.beginHunt_of_suspects hsome]
    exact State.formStep_setTree hsome State.activeTags_tagOk
      { s.tree k with light := { (s.tree k).light with observations := [] } } _ _

/-- The answer of HUNT, by the hunt that has begun (R141). -/
theorem huntOf_beginHunt (s : State) (k : TreeId) :
    (match (s.beginHunt k).huntOf k with
      | some h => Results.huntStarted h.suspects.length h.phase.groupSize
      | none => .huntForeign) =
      if s.activeTags k = [] then .huntForeign
      else .huntStarted (s.activeTags k).length (((s.activeTags k).length + 1) / 2) := by
  obtain ⟨hnone, hsome⟩ := beginHunt_spec s k
  have hgoes : ∀ (u : State) (h : Hunt), (huntGoesOn u k h).huntOf k = some h := fun u h => by
    simp only [State.huntOf, huntGoesOn, State.setTree_tree]
  by_cases hl : s.activeTags k = []
  · have hover : (s.beginHunt k).huntOf k = none := by
      rw [hnone hl]
      have hsus : ((huntUnresolved s k (s.firstHunt k) .foreign none).tree k).light.suspicion = .unresolved :=
        congrArg (fun x : Tree => x.light.suspicion) (Quad.get_set_self s.trees k _)
      simp only [State.huntOf, hsus]
    simp only [hover, if_pos hl]
  · rw [hsome hl, if_neg hl]
    have hok := State.activeTags_tagOk (s := s) (k := k)
    match htags : s.activeTags k with
    | [] => exact absurd htags hl
    | [c] =>
      rw [State.formStep_one, State.beginTrial_eq _ (hok c (htags ▸ List.mem_cons_self)), hgoes]
      simp only [HuntPhase.groupSize, List.length_singleton]
    | a :: b :: rest =>
      rw [State.formStep_more, State.searchStep_eq, hgoes]
      have hgroup : ((a :: b :: rest).take (((a :: b :: rest).length + 1) / 2)).length =
          ((a :: b :: rest).length + 1) / 2 := by
        rw [List.length_take]
        exact Nat.min_eq_left (by omega)
      simp only [HuntPhase.groupSize, hgroup]

/-- Settles O36: how a hunt begins, how a step is formed, and HUNT. -/
theorem huntBegins : Obligations.HuntBegins := by
  refine ⟨beginHunt_spec, fun s k h list => ⟨fun c hc hok => ?_, fun hl => ?_⟩, fun s q n hfree => ?_⟩
  · subst hc
    exact State.beginTrial_eq h hok
  · exact (State.formStep_of_two hl h).trans (State.searchStep_eq h list)
  · have hexec : exec (.hunt .supervisor q n) s = .next (s.takeHunt .supervisor q n) :=
      exec_of_portFree (r := .hunt n) rfl hfree rfl
    rw [hexec]
    refine ⟨fun k hk hp hs => ?_, fun k hk hno => ?_, fun hn => ?_⟩
    · subst hk
      have hgo : ¬ ((s.tree k).phase ≠ .running ∨ s.hunting k = true) := fun hc =>
        hc.elim (absurd hp) fun h => absurd h (by rw [State.hunting_eq_false hs]; decide)
      simp only [State.takeHunt, treeOf_val, if_neg hgo]
      exact congrArg (fun r => Host.Outcome.next ((s.beginHunt k).reply .supervisor q .done r)) (huntOf_beginHunt s k)
    · subst hk
      have hrefuse : (s.tree k).phase ≠ .running ∨ s.hunting k = true :=
        hno.imp_right fun ⟨h, hh⟩ => State.hunting_of_suspicion hh
      simp only [State.takeHunt, treeOf_val, if_pos hrefuse]
      rfl
    · simp only [State.takeHunt, treeOf_eq_none hn]
      rfl

/-! ## Watching (R127 to R129) -/

/-- A hit in CLEAR: WATCH with one HIT, LIGHT_SEEN, and with an M of 1 a hunt at once. -/
theorem State.enterWatch_eq (n : Round) (level : Nat) (stray : Bool) :
    let watched := (s.setTree k { s.tree k with light := { (s.tree k).light with suspicion := .watch, observations := [true] } }
      ).raise k (.lightSeen k n level (s.tree k).light.effectiveLimit stray)
    s.enterWatch k n level stray = if (s.tree k).light.m ≤ 1 then watched.beginHunt k else watched := by
  intro watched
  have hlight : (watched.tree k).light = { (s.tree k).light with suspicion := .watch, observations := [true] } :=
    congrArg Tree.light (Quad.get_set_self s.trees k _)
  have htest : watched.testWatchList k = if (s.tree k).light.m ≤ 1 then watched.beginHunt k else watched := by
    simp only [State.testWatchList, hlight]
    rfl
  exact htest

/-- The list of outcomes is tested: M hits begin a hunt, and eight outcomes with fewer end the watch (R129). -/
theorem State.testWatchList_eq :
    s.testWatchList k =
      if (s.tree k).light.m ≤ (s.tree k).light.observations.count true then s.beginHunt k
      else if 8 ≤ (s.tree k).light.observations.length then
        (s.setTree k { s.tree k with light := { (s.tree k).light with suspicion := .clear, observations := [] } }).raise k
          (.lightGone k s.round ((s.tree k).light.observations.count true))
      else s := rfl

/-! ## Dark windows of a RUNNING tree (R90, R127 to R130) -/

/-- The part once the level of a dark window is taken and kept, with a light supervisor. -/
def State.darkSeen (s : State) (k : TreeId) (level : Nat) (l : Light) : State :=
  s.setTree k { s.tree k with
    light := { l with lastDark := some (level, s.round) }, checker := { (s.tree k).checker with darkTaken := true } }

theorem State.darkSeen_light (level : Nat) (l : Light) :
    ((s.darkSeen k level l).tree k).light = { l with lastDark := some (level, s.round) } :=
  congrArg Tree.light (Quad.get_set_self s.trees k _)

section
variable {r : PlanRecord} {width : Nat} (hp : (s.tree k).phase = .running) (hr : (s.tree k).record s.round = some r)
  (hd : r.dark = some width) (hmuted : (s.tree k).checker.muted = false) (htaken : (s.tree k).checker.darkTaken = false)
  (samples : List Sample)
include hp hr hd hmuted htaken

/-- The level of a dark window is taken once, and judged by suspicion state. -/
theorem State.darkEnds_of_running :
    let level := darkLevel width (s.tree k).guardAtZero samples
    let hit : Bool := (s.tree k).light.effectiveLimit < level
    let list := (s.tree k).light.observations ++ [hit]
    s.darkEnds k samples =
      match (s.tree k).light.suspicion with
      | .clear =>
        if hit then (s.darkSeen k level (s.tree k).light).enterWatch k s.round level false
        else s.darkSeen k level (s.tree k).light
      | .watch => (s.darkSeen k level { (s.tree k).light with observations := list }).testWatchList k
      | .hunt h => (s.darkSeen k level (s.tree k).light).observeHunt k h hit
      | .unresolved => s.darkSeen k level { (s.tree k).light with observations := list.drop (list.length - 8) } := by
  cases hs : (s.tree k).light.suspicion <;>
    simp [State.darkEnds, hr, hd, hmuted, htaken, hp, State.judgeDark, hs, State.modLight, State.modTree, State.modChecker,
      State.darkSeen]

theorem State.darkEnds_of_clear (hs : (s.tree k).light.suspicion = .clear) :
    let level := darkLevel width (s.tree k).guardAtZero samples
    s.darkEnds k samples =
      if (s.tree k).light.effectiveLimit < level then (s.darkSeen k level (s.tree k).light).enterWatch k s.round level false
      else s.darkSeen k level (s.tree k).light :=
  (State.darkEnds_of_running hp hr hd hmuted htaken samples).trans (by simp only [hs, decide_eq_true_eq])

theorem State.darkEnds_of_watch (hs : (s.tree k).light.suspicion = .watch) :
    let level := darkLevel width (s.tree k).guardAtZero samples
    let hit : Bool := (s.tree k).light.effectiveLimit < level
    s.darkEnds k samples =
      (s.darkSeen k level { (s.tree k).light with observations := (s.tree k).light.observations ++ [hit] }).testWatchList k :=
  (State.darkEnds_of_running hp hr hd hmuted htaken samples).trans (by simp only [hs])

theorem State.darkEnds_of_hunt {h : Hunt} (hs : (s.tree k).light.suspicion = .hunt h) :
    let level := darkLevel width (s.tree k).guardAtZero samples
    s.darkEnds k samples =
      (s.darkSeen k level (s.tree k).light).observeHunt k h ((s.tree k).light.effectiveLimit < level) :=
  (State.darkEnds_of_running hp hr hd hmuted htaken samples).trans (by simp only [hs])

theorem State.darkEnds_of_unresolved (hs : (s.tree k).light.suspicion = .unresolved) :
    let level := darkLevel width (s.tree k).guardAtZero samples
    let hit : Bool := (s.tree k).light.effectiveLimit < level
    let list := (s.tree k).light.observations ++ [hit]
    s.darkEnds k samples = s.darkSeen k level { (s.tree k).light with observations := list.drop (list.length - 8) } :=
  (State.darkEnds_of_running hp hr hd hmuted htaken samples).trans (by simp only [hs])

end

/-- A hit in CLEAR after the level is kept. -/
theorem State.enterWatch_darkSeen (level : Nat) :
    let watched := (s.darkSeen k level { (s.tree k).light with suspicion := .watch, observations := [true] }).raise k
      (.lightSeen k s.round level (s.tree k).light.effectiveLimit false)
    (s.darkSeen k level (s.tree k).light).enterWatch k s.round level false =
      if (s.tree k).light.m ≤ 1 then watched.beginHunt k else watched := by
  have htree : (s.darkSeen k level (s.tree k).light).tree k = _ := s.setTree_tree k _
  have hset := fun y => s.setTree_setTree (k := k)
    { s.tree k with light := { (s.tree k).light with lastDark := some (level, s.round) }
                    checker := { (s.tree k).checker with darkTaken := true } } y
  have hwatch := State.enterWatch_eq (s := s.darkSeen k level (s.tree k).light) (k := k) s.round level false
  rw [htree] at hwatch
  rw [State.darkSeen, hset] at hwatch
  exact hwatch

/-- Settles O35, by the suspicion state, the level and the list of outcomes. -/
theorem darkWindowJudged : Obligations.DarkWindowJudged := by
  intro s k samples r width hp hr hd hmuted htaken x level limit hit list seen watched
  have hclear := State.darkEnds_of_clear hp hr hd hmuted htaken samples
  have hwatch := State.darkEnds_of_watch hp hr hd hmuted htaken samples
  have hentered := State.enterWatch_darkSeen (s := s) (k := k) level
  have hlist : ∀ l : Light, (s.darkSeen k level l).testWatchList k =
      if l.m ≤ l.observations.count true then (seen l).beginHunt k
      else if 8 ≤ l.observations.length then
        (seen { l with suspicion := .clear, observations := [] }).raise k
          (.lightGone k s.round (l.observations.count true))
      else seen l := fun l => by
    have hgone : (s.darkSeen k level l).setTree k { (s.darkSeen k level l).tree k with
        light := { ((s.darkSeen k level l).tree k).light with suspicion := .clear, observations := [] } } =
          seen { l with suspicion := .clear, observations := [] } := by
      have htree : (s.darkSeen k level l).tree k = _ := s.setTree_tree k _
      rw [htree, State.darkSeen, State.setTree_setTree]
    rw [State.testWatchList_eq, hgone, State.darkSeen_light]
    rfl
  have hexec : exec (.darkWindowEnd k samples) s = .next (s.darkEnds k samples) := rfl
  rw [hexec]
  refine ⟨fun hs hh => ?_, fun hs hh hm => ?_, fun hs hh hm => ?_, fun hs hm => ?_, fun hs hm hl => ?_, fun hs hm hl => ?_,
    fun hs => ?_⟩
  · exact congrArg Host.Outcome.next ((hclear hs).trans (if_neg (of_decide_eq_false hh)))
  · exact congrArg Host.Outcome.next (((hclear hs).trans (if_pos (of_decide_eq_true hh))).trans
      (hentered.trans (if_neg (Nat.not_le.2 hm))))
  · exact congrArg Host.Outcome.next (((hclear hs).trans (if_pos (of_decide_eq_true hh))).trans (hentered.trans (if_pos hm)))
  · exact congrArg Host.Outcome.next ((hwatch hs).trans ((hlist _).trans (if_pos hm)))
  · exact congrArg Host.Outcome.next ((hwatch hs).trans ((hlist _).trans ((if_neg (Nat.not_le.2 hm)).trans
      (if_neg (Nat.not_le.2 hl)))))
  · exact congrArg Host.Outcome.next ((hwatch hs).trans ((hlist _).trans ((if_neg (Nat.not_le.2 hm)).trans (if_pos hl))))
  · exact congrArg Host.Outcome.next (State.darkEnds_of_unresolved hp hr hd hmuted htaken samples hs)

/-! ## Stray light (R89, R128) -/

theorem State.judgeStray_of_watched (hs : (s.tree k).light.suspicion ≠ .clear) (n : Round) (level : Nat) :
    s.judgeStray k n level =
      s.setTree k { s.tree k with light := { (s.tree k).light with strays := min 4294967295 ((s.tree k).light.strays + 1) } } := by
  unfold State.judgeStray
  split
  · rename_i hc
    exact absurd hc hs
  · rfl

theorem State.judgeStray_of_clear (hs : (s.tree k).light.suspicion = .clear) (n : Round) (level : Nat) :
    s.judgeStray k n level =
      (s.setTree k { s.tree k with light := { (s.tree k).light with strays := min 4294967295 ((s.tree k).light.strays + 1) } }
        ).enterWatch k n level true := by
  have hstray : s.judgeStray k n level = match (s.tree k).light.suspicion with
      | .clear => (s.setTree k { s.tree k with light := { (s.tree k).light with
          strays := min 4294967295 ((s.tree k).light.strays + 1) } }).enterWatch k n level true
      | _ => s.setTree k { s.tree k with light := { (s.tree k).light with
          strays := min 4294967295 ((s.tree k).light.strays + 1) } } := rfl
  exact hstray.trans (by simp only [hs])

/-- The idle stretch that is judged: the one that was carried over the round's start, or that of the round in progress (log entry
5). -/
theorem State.idleEnds_eq {seen : State} (samples : List Sample) {n : Round} {first : Nat} (hp : (s.tree k).phase = .running)
    (hmuted : (s.tree k).checker.muted = false)
    (hcase : ((s.tree k).checker.carriedIdle = some { round := n, first := first } ∧
        seen = s.setTree k { s.tree k with checker := { (s.tree k).checker with carriedIdle := none } }) ∨
      ((s.tree k).checker.carriedIdle = none ∧ n = s.round ∧ (s.tree k).checker.idleTaken = false ∧
        (∃ r : PlanRecord, (s.tree k).record s.round = some r ∧ first = idleStart r (s.tree k).guardAtZero) ∧ first + 8 ≤ 1875 ∧
        seen = s.setTree k { s.tree k with checker := { (s.tree k).checker with idleTaken := true } })) :
    s.idleEnds k samples = seen.judgeIdle k n first samples ∧ (seen.tree k).light = (s.tree k).light := by
  have hjudges : (s.tree k).judges = true := by
    rw [Tree.judges, hp, hmuted]
    rfl
  obtain ⟨hcarried, rfl⟩ | ⟨hcarried, rfl, htaken, ⟨r, hr, rfl⟩, hlong, rfl⟩ := hcase
  · refine ⟨?_, by rw [State.setTree_tree]⟩
    have hends : s.idleEnds k samples =
        (s.modChecker k fun k => { k with carriedIdle := none }).judgeIdle k n first samples := by
      simp only [State.idleEnds, hjudges, if_true, hcarried]
    exact hends
  · refine ⟨?_, by rw [State.setTree_tree]⟩
    have hopen : (s.tree k).idleOpen s.round = some (idleStart r (s.tree k).guardAtZero) := by
      have hall : (s.tree k).judges = true ∧ (s.tree k).checker.idleTaken = false ∧
          idleStart r (s.tree k).guardAtZero + 8 ≤ roundQuanta := ⟨hjudges, htaken, hlong⟩
      simp only [Tree.idleOpen, hr, if_pos hall]
    have hends : s.idleEnds k samples = (s.modChecker k fun k => { k with idleTaken := true }).judgeIdle k s.round
        (idleStart r (s.tree k).guardAtZero) samples := by
      simp only [State.idleEnds, hjudges, if_true, hcarried, hopen]
    exact hends

/-- Settles O33, by the level and the suspicion state. -/
theorem idleStretchJudged : Obligations.IdleStretchJudged := by
  intro s seen k samples n first hp hmuted x hcase level limit strays lit watched
  obtain ⟨hends, hlight⟩ := State.idleEnds_eq samples hp hmuted hcase
  have hexec : exec (.idleStretchEnd k samples) s = .next (s.idleEnds k samples) := rfl
  have hlimit : (seen.tree k).light.effectiveLimit = limit := by rw [hlight]; rfl
  have hjudge : s.idleEnds k samples = if limit < level then seen.judgeStray k n level else seen := by
    rw [hends, State.judgeIdle, hlimit]
    rfl
  have hcounted : seen.setTree k { seen.tree k with light := { (seen.tree k).light with
      strays := min 4294967295 ((seen.tree k).light.strays + 1) } } = lit { x.light with strays := strays } := by
    rw [hlight]
  have hentered : x.light.suspicion = .clear →
      seen.judgeStray k n level = if x.light.m ≤ 1 then watched.beginHunt k else watched := fun hs => by
    have htree := seen.setTree_tree k { seen.tree k with light := { x.light with strays := strays } }
    have hset := seen.setTree_setTree (k := k) { seen.tree k with light := { x.light with strays := strays } }
    have hwatch := State.enterWatch_eq (s := lit { x.light with strays := strays }) (k := k) n level true
    rw [State.judgeStray_of_clear (hlight.symm ▸ hs), hcounted]
    refine hwatch.trans ?_
    simp only [lit, htree, hset]
    rfl
  rw [hexec, hjudge]
  refine ⟨fun hl => ?_, fun hl hs => ?_, fun hl hs hm => ?_, fun hl hs hm => ?_⟩
  · rw [if_neg (Nat.not_lt.2 hl)]
  · rw [if_pos hl, State.judgeStray_of_watched (hlight.symm ▸ hs), hcounted]
  · rw [if_pos hl, hentered hs, if_neg (Nat.not_le.2 hm)]
  · rw [if_pos hl, hentered hs, if_pos hm]

/-! ## Dark windows in a hunt (R133 to R138) -/

/-- The hunt record after an outcome: steps rise, the dark run starts again. -/
def Hunt.afterOutcome (h : Hunt) : Hunt := { h with steps := min 255 (h.steps + 1), darkRun := 0 }

section
variable {h : Hunt}

theorem State.huntOutcome_of_search {group : List Nat} (hp : h.phase = .search group) :
    s.huntOutcome k h true =
      (s.modTreeEntries k fun tag e => if tag ∈ group ∧ e.hushed then e.owe .wake else e).formStep k h.afterOutcome
        (h.suspects.filter fun tag => tag ∉ group) ∧
    s.huntOutcome k h false = s.formStep k h.afterOutcome group := by
  have hwake : ∀ (tag : Nat) (e : Entry), (if tag ∈ group then e.wake else e) =
      if tag ∈ group ∧ e.hushed then e.owe .wake else e := fun tag e => by
    by_cases ht : tag ∈ group <;> simp [ht, Entry.wake]
  constructor
  · simp only [State.huntOutcome, hp, hwake, if_true]
    rfl
  · simp only [State.huntOutcome, hp, Bool.false_eq_true, if_false]
    rfl

theorem State.huntOutcome_of_trial {c : Nat} (hp : h.phase = .trial c) :
    s.huntOutcome k h true =
      huntGoesOn (s.modTreeEntries k fun tag e => if tag ∈ s.quietTags k then e.hush else e) k
        { h.afterOutcome with phase := .allQuiet c (s.quietTags k), effective := none } ∧
    s.huntOutcome k h false =
      huntOver ((s.modEntry k c Entry.confirmFence).raise k
        (.rogueContained k c (s.serialAt k c) h.afterOutcome.steps h.started)) k .clear .contained (some c) := by
  constructor
  · simp only [State.huntOutcome, hp, if_true]
    rfl
  · simp only [State.huntOutcome, hp, Bool.false_eq_true, if_false]
    rfl

theorem State.huntOutcome_of_allQuiet {c : Nat} {quiet : List Nat} (hp : h.phase = .allQuiet c quiet) (lit : Bool) :
    s.huntOutcome k h lit =
      huntUnresolved (s.releaseCandidate k c) k h.afterOutcome (if lit then .foreign else .elusive) (some c) := by
  have hafter : (if lit then HuntReason.foreign else .elusive).after = .unresolved := by cases lit <;> rfl
  simp only [State.huntOutcome, hp, State.unresolved_eq hafter]
  rfl

theorem Entry.confirmFence_eq {e : Entry} {f : Fenced} (hf : e.body = .fenced f) :
    e.confirmFence = { e with body := .fenced { f with trial := false } } := by
  simp only [Entry.confirmFence, hf]

/-- The level of a dark window in a hunt: nothing before the effective round; then a hit, the V-th low level in a row, or one
more low level (R133). -/
theorem State.observeHunt_eq {n : Round} (hn : h.effective = some n) (hit : Bool) :
    s.observeHunt k h hit =
      if laterThan n s.round = true then s
      else if hit = true then s.huntOutcome k h true
      else if (s.tree k).light.v ≤ h.darkRun + 1 then s.huntOutcome k h false
      else huntGoesOn s k { h with darkRun := h.darkRun + 1 } := by
  simp only [State.observeHunt, hn]
  rfl

theorem State.observeHunt_of_none (hn : h.effective = none) (hit : Bool) : s.observeHunt k h hit = s := by
  simp only [State.observeHunt, hn]

end

/-- Settles O37, by the effective round, the level and the phase of the hunt. -/
theorem huntObserved : Obligations.HuntObserved := by
  intro s k samples r width h hp hr hd hmuted htaken hs x level hit seen does h' dark
  have hexec : exec (.darkWindowEnd k samples) s = .next (s.darkEnds k samples) := rfl
  have hends : s.darkEnds k samples = seen.observeHunt k h hit :=
    State.darkEnds_of_hunt hp hr hd hmuted htaken samples hs
  have hdoes : ∀ {t : State}, seen.observeHunt k h hit = t → does t := fun ht =>
    hexec.trans (congrArg Host.Outcome.next (hends.trans ht))
  have hv : (seen.tree k).light.v = x.light.v := by rw [State.setTree_tree]
  have hentries : seen.treeEntries k = s.treeEntries k := rfl
  refine ⟨fun hnone => hdoes ?_, fun n hn => ⟨fun hlater => hdoes ?_, fun hnow => ?_⟩⟩
  · exact State.observeHunt_of_none hnone _
  · exact (State.observeHunt_eq hn _).trans (if_pos hlater)
  have hstep := (State.observeHunt_eq (s := seen) (k := k) hn hit).trans
    (if_neg (by rw [State.setTree_round, hnow]; decide))
  have hlow : hit = false → ¬ hit = true := fun hh => by rw [hh]; decide
  have hlit : hit = true → seen.observeHunt k h hit = seen.huntOutcome k h true := fun hh => hstep.trans (if_pos hh)
  have hdark : dark → seen.observeHunt k h hit = seen.huntOutcome k h false := fun ⟨hh, hrun⟩ =>
    hstep.trans ((if_neg (hlow hh)).trans (if_pos (hv.symm ▸ hrun)))
  refine ⟨fun hh hrun => hdoes ?_, fun group hphase => ?_, fun c hphase => ?_, fun c quiet hphase hout e f hcanon hc he hf ht => ?_⟩
  · exact hstep.trans ((if_neg (hlow hh)).trans (if_neg (by rw [hv]; exact Nat.not_le.2 hrun)))
  · obtain ⟨hsearchLit, hsearchDark⟩ := State.huntOutcome_of_search (s := seen) (k := k) hphase
    exact ⟨fun hh => hdoes ((hlit hh).trans hsearchLit), fun hh => hdoes ((hdark hh).trans hsearchDark)⟩
  · obtain ⟨htrialLit, htrialDark⟩ := State.huntOutcome_of_trial (s := seen) (k := k) hphase
    refine ⟨fun hh => hdoes ((hlit hh).trans htrialLit), fun hh e f hcanon _ he hf => hdoes ((hdark hh).trans ?_)⟩
    have hserial : seen.serialAt k c = e.serial := by
      have he : seen.entry k c = some e := he
      simp only [State.serialAt, he]
    rw [htrialDark, hserial, State.modEntry_of_entry (s := seen) hcanon.1 he, Entry.confirmFence_eq hf]
    rfl
  · have hrelease := State.releaseCandidate_of_trial (s := seen) hcanon.1 he hf ht
    have hends : seen.observeHunt k h hit = seen.huntOutcome k h hit := hout.elim
      (fun hh => (hlit hh).trans (congrArg (seen.huntOutcome k h) hh.symm))
      fun hh => (hdark hh).trans (congrArg (seen.huntOutcome k h) hh.1.symm)
    refine hdoes (hends.trans ((State.huntOutcome_of_allQuiet hphase hit).trans ?_))
    rw [hrelease]
    rfl

end Sys2Proof.Machine
end

section
/-! PROOFS. Staged changes: what handing one over does at a cut (O45, O46). -/

namespace Sys2Proof.Machine

variable {s : State} {k : TreeId} {tag : Nat} {q : ChangeEntry} {e : Entry}

/-! ## The target of a change (R22, R115) -/

theorem State.targetOf_of_voided (h : q.voided = true) : s.targetOf q k tag = none := if_pos h

theorem State.targetOf_of_vacant (h : s.entry k tag = none) : s.targetOf q k tag = none := by
  simp only [State.targetOf, h, ite_self]

theorem State.targetOf_of_later (he : s.entry k tag = some e) (h : laterThan e.occupied q.roundTaken = true) :
    s.targetOf q k tag = none := by
  simp only [State.targetOf, he, if_pos h, ite_self]

theorem State.targetOf_of_entry (hv : q.voided = false) (he : s.entry k tag = some e)
    (h : laterThan e.occupied q.roundTaken = false) : s.targetOf q k tag = some e := by
  simp only [State.targetOf, hv, he, h, Bool.false_eq_true, if_false]

/-! ## FENCE and RELEASE (R29, R30) -/

theorem Entry.applyFence_of_refused (h : e.state = .heard ∨ e.state = .leaving ∨ e.trial = true) : e.applyFence = none := by
  obtain ⟨serial, occupied, contract, booked, capped, owed, body⟩ := e
  cases body with
  | heard f => rfl
  | leaving d => rfl
  | timed f => simp [Entry.state, Entry.trial] at h
  | active f => simp [Entry.state, Entry.trial] at h
  | silent f => simp [Entry.state, Entry.trial] at h
  | fenced f =>
    have ht : f.trial = true := by simpa [Entry.state, Entry.trial] using h
    exact if_pos ht

theorem Entry.releaseFence_of_refused (h : e.state ≠ .fenced ∨ e.trial = true) : e.releaseFence false = none := by
  obtain ⟨serial, occupied, contract, booked, capped, owed, body⟩ := e
  cases body with
  | fenced f =>
    have ht : f.trial = true := by simpa [Entry.state, Entry.trial] using h
    exact if_neg (by rw [ht]; decide)
  | _ => rfl

theorem State.applyFence_of_none (h : s.targetOf q k tag = none) : s.applyFence q k tag = ⟨s, false⟩ := by
  simp only [State.applyFence, h]

theorem State.applyFence_of_refused (h : s.targetOf q k tag = some e) (hf : e.applyFence = none) :
    s.applyFence q k tag = ⟨s, false⟩ := by
  simp only [State.applyFence, h, hf]

theorem State.applyFence_of_target (h : s.targetOf q k tag = some e) {e' : Entry} (hf : e.applyFence = some e')
    (ht : e.state ≠ .timed) :
    s.applyFence q k tag =
      ⟨if e.state = .fenced then s.setEntry k tag e' else (s.setEntry k tag e').leaveHunt k tag, true⟩ := by
  simp only [State.applyFence, h, hf, if_neg ht]

theorem State.applyFence_of_timed (h : s.targetOf q k tag = some e) {e' : Entry} (hf : e.applyFence = some e')
    (ht : e.state = .timed) :
    s.applyFence q k tag = ⟨((s.setEntry k tag e').openMeters k tag).leaveHunt k tag, true⟩ := by
  simp only [State.applyFence, h, hf, ht, if_true, reduceCtorEq, if_false]

theorem State.applyRelease_of_none (h : s.targetOf q k tag = none) : s.applyRelease q k tag = ⟨s, false⟩ := by
  simp only [State.applyRelease, h]

theorem State.applyRelease_of_refused (h : s.targetOf q k tag = some e)
    (hr : e.releaseFence false = none ∨ (s.tree k).phase ≠ .running) : s.applyRelease q k tag = ⟨s, false⟩ := by
  have hnone : (if (s.tree k).phase = .running then e.releaseFence false else none) = none := by
    split
    · exact hr.elim id fun hp => absurd ‹_› hp
    · rfl
  simp only [State.applyRelease, h, hnone]

theorem State.applyRelease_of_target (h : s.targetOf q k tag = some e) {e' : Entry} (hr : e.releaseFence false = some e')
    (hp : (s.tree k).phase = .running) : s.applyRelease q k tag = ⟨s.setEntry k tag e', true⟩ := by
  simp only [State.applyRelease, h, if_pos hp, hr]

/-- Settles O45, by the change, the target and the state of its entry. -/
theorem fenceAndReleaseApplied : Obligations.FenceAndReleaseApplied := by
  intro s q k tag htag hcanon isVoid becomes leaves fenceOwed releaseOwed blank
  have hfence : q.change = .fence k tag → s.applyChange q = s.applyFence q k tag := fun hq => by
    simp only [State.applyChange, hq]
  have hrelease : q.change = .release k tag → s.applyChange q = s.applyRelease q k tag := fun hq => by
    simp only [State.applyChange, hq]
  have hvoid : s.applyChange q = ⟨s, false⟩ → isVoid := fun h => ⟨congrArg _ h, congrArg _ h⟩
  have hnone : (q.change = .fence k tag ∨ q.change = .release k tag) → s.targetOf q k tag = none → isVoid := by
    rintro (hq | hq) ht
    · exact hvoid ((hfence hq).trans (State.applyFence_of_none ht))
    · exact hvoid ((hrelease hq).trans (State.applyRelease_of_none ht))
  refine ⟨fun hq => ⟨fun h => hnone hq (h.elim State.targetOf_of_voided State.targetOf_of_vacant),
    fun e he hl => hnone hq (State.targetOf_of_later he hl)⟩, fun e hv he hl => ?_⟩
  have ht := State.targetOf_of_entry hv he hl
  refine ⟨fun hq => ?_, fun hq => ⟨fun f hf htrial hp => ?_, fun h => ?_⟩⟩
  · have hfences : ∀ {e'}, e.applyFence = some e' → e.state ≠ .timed → e.state ≠ .fenced → leaves s e' :=
      fun hf htimed hfenced => by
        have h := ((hfence hq).trans (State.applyFence_of_target ht hf htimed))
        rw [if_neg hfenced] at h
        exact ⟨congrArg _ h, congrArg _ h⟩
    refine ⟨fun f hf => ?_, fun f hf => ?_, fun f hf => ?_, fun f hf htrial => ?_, fun h =>
      hvoid ((hfence hq).trans (State.applyFence_of_refused ht (Entry.applyFence_of_refused h)))⟩
    · exact hfences (by simp only [Entry.applyFence, hf]; rfl) (by simp [Entry.state, hf]) (by simp [Entry.state, hf])
    · have hstate : e.state = .timed := by simp [Entry.state, hf]
      have h : s.applyChange q = ⟨((s.setEntry k tag { e with
          owed := fenceOwed e.owed, body := blank f.e f.hushed }).openMeters k tag).leaveHunt k tag, true⟩ :=
        (hfence hq).trans (State.applyFence_of_timed ht (by simp only [Entry.applyFence, hf]; rfl) hstate)
      refine ⟨fun hm => ?_, fun hm => ?_⟩
      · obtain ⟨m, hm⟩ := Option.ne_none_iff_exists'.1 hm
        have hopen : ∀ e', (s.setEntry k tag e').openMeters k tag = s.setEntry k tag e' := fun e' => by
          have hm' : (s.setEntry k tag e').meterOf k tag = some m := hm
          simp only [State.openMeters, hm']
        rw [hopen] at h
        exact ⟨congrArg _ h, congrArg _ h⟩
      · have hopen : ∀ e', (s.setEntry k tag e').openMeters k tag =
            ({ s with meters := Store.write (slotOf k tag) (zeroMeters s.round true) s.meters } : State).setEntry k tag e' := by
          intro e'
          have hm' : (s.setEntry k tag e').meterOf k tag = none := hm
          simp only [State.openMeters, hm']
          rfl
        rw [hopen] at h
        exact ⟨congrArg _ h, congrArg _ h⟩
    · exact hfences (by simp only [Entry.applyFence, hf]; rfl) (by simp [Entry.state, hf]) (by simp [Entry.state, hf])
    · have hstate : e.state = .fenced := by simp [Entry.state, hf]
      have happly : e.applyFence = some (e.owe .fence) := by
        simp only [Entry.applyFence, hf, htrial, Bool.false_eq_true, if_false]
      have h := (hfence hq).trans (State.applyFence_of_target ht happly (by rw [hstate]; decide))
      rw [if_pos hstate] at h
      exact ⟨congrArg _ h, congrArg _ h⟩
  · have h := (hrelease hq).trans (State.applyRelease_of_target ht (Entry.releaseFence_eq hf htrial) hp)
    exact ⟨congrArg _ h, congrArg _ h⟩
  · refine hvoid ((hrelease hq).trans (State.applyRelease_of_refused ht ?_))
    obtain h | h | h := h
    · exact .inl (Entry.releaseFence_of_refused (.inl h))
    · exact .inl (Entry.releaseFence_of_refused (.inr h))
    · exact .inr h

/-! ## WITHDRAW (R31, R115)

A WITHDRAW voids the later changes of its slot and returns the booked commitment to c. Neither is looked at by the hunt that its
entry leaves, so that the order of the two does not matter. -/

/-- The booked commitment of an entry that no change of the queue raises (R20). -/
def Entry.unbooked (e : Entry) : Entry := { e with booked := e.contract.c }

/-- The changes of a slot made void, and its booked commitment returned to c (R31). -/
def State.unbookSlot (s : State) (k : TreeId) (tag : Nat) : State := (s.voidQueued k tag).modEntry k tag Entry.unbooked

theorem queuedRates_voided (queue : List ChangeEntry) (r : Round) :
    queuedRates (queue.map fun x => if x.change.names k tag then { x with voided := true } else x) k tag r = [] := by
  refine List.filterMap_eq_nil_iff.2 fun x hx => ?_
  obtain ⟨y, -, rfl⟩ := List.mem_map.1 hx
  by_cases hn : y.change.names k tag = true
  · rw [if_pos hn]
    dsimp only
    split <;> simp
  · rw [if_neg hn]
    cases hc : y.change with
    | contract t' tag' v =>
      have hne : ¬ (t' = k ∧ tag' = tag) := by simpa [hc, Change.names] using hn
      simp only
      exact if_neg fun h => hne ⟨h.1, h.2.1⟩
    | _ => rfl

theorem State.rebook_voidQueued (s : State) : (s.voidQueued k tag).rebook k tag = s.unbookSlot k tag := by
  have hrates : ∀ r, queuedRates (s.voidQueued k tag).queue k tag r = [] := queuedRates_voided s.queue
  simp only [State.rebook, hrates]
  rfl

theorem Entry.wake_unbooked (e : Entry) : e.unbooked.wake = e.wake.unbooked := by
  rw [Entry.wake, Entry.wake, apply_ite Entry.unbooked]
  rfl

theorem Entry.hush_unbooked (e : Entry) : e.unbooked.hush = e.hush.unbooked := by
  have hset : e.unbooked.setHushed true = (e.setHushed true).unbooked := by
    obtain ⟨serial, occupied, contract, booked, capped, owed, body⟩ := e
    cases body <;> rfl
  rw [Entry.hush, Entry.hush, apply_ite Entry.unbooked, apply_ite Entry.unbooked, hset]
  rfl

theorem Entry.superviseFence_unbooked (e : Entry) :
    (e.unbooked.superviseFence true).getD e.unbooked = ((e.superviseFence true).getD e).unbooked := by
  obtain ⟨serial, occupied, contract, booked, capped, owed, body⟩ := e
  cases body <;> rfl

section
variable {j : TreeId}

theorem Store.modify_map {n : Nat} {u : Entry → Entry} {g : Nat × Entry → Entry} (h : ∀ m e, g (m, u e) = u (g (m, e)))
    (ros : Store Entry) :
    (Store.modify n u ros).map (fun x => (x.1, g x)) = Store.modify n u (ros.map fun x => (x.1, g x)) := by
  simp only [Store.modify, List.map_map]
  refine List.map_congr_left fun x _ => ?_
  by_cases hx : x.1 = n
  · simp only [Function.comp, if_pos hx, h]
  · simp only [Function.comp, if_neg hx]

theorem State.unbookSlot_modTreeEntries {f : Nat → Entry → Entry} (h : ∀ tag e, f tag e.unbooked = (f tag e).unbooked) :
    (s.unbookSlot k tag).modTreeEntries j f = (s.modTreeEntries j f).unbookSlot k tag := by
  have hmap : ∀ ros : Store Entry, (ros.map fun x => if slotTree x.1 = j.val then (x.1, f (slotTag x.1) x.2) else x) =
      ros.map fun x => (x.1, if slotTree x.1 = j.val then f (slotTag x.1) x.2 else x.2) := fun ros =>
    List.map_congr_left fun x _ => by split <;> rfl
  have hroster := Store.modify_map (n := slotOf k tag) (u := Entry.unbooked)
    (g := fun x => if slotTree x.1 = j.val then f (slotTag x.1) x.2 else x.2)
    (fun m e => by rw [apply_ite Entry.unbooked, h]) s.roster
  rw [← hmap, ← hmap] at hroster
  exact congrArg (fun r => { s.voidQueued k tag with roster := r }) hroster

theorem State.unbookSlot_modEntry (n : Nat) {f : Entry → Entry} (h : ∀ e, f e.unbooked = (f e).unbooked) :
    (s.unbookSlot k tag).modEntry j n f = (s.modEntry j n f).unbookSlot k tag := by
  have hmap : ∀ ros : Store Entry, Store.modify (slotOf j n) f ros =
      ros.map fun x => (x.1, if x.1 = slotOf j n then f x.2 else x.2) := fun ros =>
    List.map_congr_left fun x _ => by split <;> rfl
  have hroster := Store.modify_map (n := slotOf k tag) (u := Entry.unbooked)
    (g := fun x => if x.1 = slotOf j n then f x.2 else x.2) (fun m e => by rw [apply_ite Entry.unbooked, h]) s.roster
  rw [← hmap, ← hmap] at hroster
  exact congrArg (fun r => { s.voidQueued k tag with roster := r }) hroster

theorem State.unbookSlot_unresolved (h : Hunt) (reason : HuntReason) (c : Option Nat) :
    (s.unbookSlot k tag).unresolved j h reason c = (s.unresolved j h reason c).unbookSlot k tag := by
  have hwake := State.unbookSlot_modTreeEntries (s := s.raise j (.rogueUnresolved j reason h.steps h.started c))
    (k := k) (tag := tag) (j := j) (f := fun _ e => e.wake) fun _ e => e.wake_unbooked
  exact congrArg (fun u : State => u.modLight j fun l => { l with
    suspicion := reason.after, observations := [], lastHunt := some { reason := reason, round := s.round, tag := c } }) hwake

theorem State.unbookSlot_formStep (h : Hunt) (list : List Nat) :
    (s.unbookSlot k tag).formStep j h list = (s.formStep j h list).unbookSlot k tag := by
  match list with
  | [] => exact State.unbookSlot_unresolved h _ _
  | [c] =>
    have hwake := State.unbookSlot_modTreeEntries (s := s) (k := k) (tag := tag) (j := j) (f := fun _ e => e.wake)
      fun _ e => e.wake_unbooked
    have hfence := State.unbookSlot_modEntry (s := s.modTreeEntries j fun _ e => e.wake) (k := k) (tag := tag) (j := j) c
      (f := fun e => (e.superviseFence true).getD e) Entry.superviseFence_unbooked
    exact congrArg (fun u : State => u.setHunt j _)
      ((congrArg (fun u : State => u.modEntry j c fun e => (e.superviseFence true).getD e) hwake).trans hfence)
  | a :: b :: rest =>
    refine congrArg (fun u : State => u.setHunt j _) (State.unbookSlot_modTreeEntries (j := j) fun n e => ?_)
    rw [apply_ite Entry.unbooked, apply_ite Entry.unbooked, Entry.hush_unbooked, Entry.wake_unbooked]

/-- A suspect leaves its hunt in the same way before and after its slot is freed of booked rates. -/
theorem State.unbookSlot_leaveHunt (n : Nat) :
    (s.unbookSlot k tag).leaveHunt j n = (s.leaveHunt j n).unbookSlot k tag := by
  have hhunt : (s.unbookSlot k tag).huntOf j = s.huntOf j := rfl
  have hwake := State.unbookSlot_modEntry (s := s) (k := k) (tag := tag) (j := j) n Entry.wake_unbooked
  cases hh : s.huntOf j with
  | none => simp only [State.leaveHunt, hhunt, hh]
  | some h =>
    cases hp : h.phase with
    | search group =>
      simp only [State.leaveHunt, hhunt, hh, hp, hwake, State.unbookSlot_unresolved, State.unbookSlot_formStep]
      simp only [apply_ite fun u : State => u.unbookSlot k tag]
      rfl
    | trial c =>
      simp only [State.leaveHunt, hhunt, hh, hp, State.unbookSlot_unresolved, apply_ite fun u : State => u.unbookSlot k tag]
    | allQuiet c quiet =>
      simp only [State.leaveHunt, hhunt, hh, hp, hwake, State.unbookSlot_unresolved]
      simp only [apply_ite fun u : State => u.unbookSlot k tag]
      rfl

end

/-- The part after the FINAL record of a slot with open meters (R31, R168). -/
theorem State.finalRecord_eq {m : Meters} (hm : s.meterOf k tag = some m) (e : Entry) :
    s.finalRecord k tag e = { s with
      journal := { s.journal with records := s.journal.records ++ [s.recordOf true k tag e m], booked := s.journal.booked - 1 }
      meters := Store.erase (slotOf k tag) s.meters
      watches := (s.rearm k tag).watches
      ports := (s.finalRecord k tag e).ports } := by
  simp only [State.finalRecord, hm]
  rw [State.journalRose_frame]
  rfl

/-- The FINAL record raises JOURNAL_HIGH where it brings the held count to the mark, with the place released (R170). -/
theorem State.finalRecord_ports {m : Meters} (hm : s.meterOf k tag = some m) (e : Entry) :
    (s.finalRecord k tag e).ports =
      if s.journal.records.length < s.journal.mark ∧ s.journal.mark ≤ s.journal.records.length + 1 then
        (s.raiseKeyless (.journalHigh (s.journal.records.length + 1) (s.journal.booked - 1) s.journal.mark s.round)).ports
      else s.ports := by
  have hports : (s.finalRecord k tag e).ports =
      (((s.appendRecord (s.recordOf true k tag e m)).releasePlace).journalRose s.journal.records.length).ports := by
    simp only [State.finalRecord, hm]
    rfl
  have hlen : ((s.appendRecord (s.recordOf true k tag e m)).releasePlace).journal.records.length =
      s.journal.records.length + 1 := List.length_append
  rw [hports, State.journalRose, hlen]
  split
  · rw [if_pos ‹_›]
    exact raiseKeyless_ports_congr rfl rfl rfl _
  · rw [if_neg ‹_›]
    rfl

theorem State.finalRecord_of_closed (hm : s.meterOf k tag = none) (e : Entry) : s.finalRecord k tag e = s.releasePlace := by
  simp only [State.finalRecord, hm]

/-- A FINAL record, and the release of its place, leave the queue and the trees (R31). -/
theorem State.finalRecord_keeps (e : Entry) :
    (s.finalRecord k tag e).queue = s.queue ∧ (s.finalRecord k tag e).trees = s.trees ∧
      (s.finalRecord k tag e).journal.booked = s.journal.booked - 1 := by
  cases hm : s.meterOf k tag with
  | none =>
    rw [State.finalRecord_of_closed hm]
    exact ⟨rfl, rfl, rfl⟩
  | some m =>
    rw [State.finalRecord_eq hm]
    exact ⟨rfl, rfl, rfl⟩

theorem Entry.toLeaving_of_leaving (h : e.state = .leaving) : e.toLeaving = none := by
  obtain ⟨serial, occupied, contract, booked, capped, owed, body⟩ := e
  cases body with
  | leaving d => rfl
  | _ => simp [Entry.state] at h

theorem Entry.toLeaving_of_ne (h : e.state ≠ .leaving) :
    e.toLeaving = some { e with
      owed := if e.owed.drop then e.owed else { Owed.none with drop := true }, body := .leaving e.delay } := by
  obtain ⟨serial, occupied, contract, booked, capped, owed, body⟩ := e
  cases body with
  | leaving d => exact absurd rfl h
  | _ => rfl

theorem State.applyWithdraw_of_none (h : s.targetOf q k tag = none) : s.applyWithdraw q k tag = ⟨s.releasePlace, false⟩ := by
  simp only [State.applyWithdraw, h]

theorem State.applyWithdraw_of_leaving (h : s.targetOf q k tag = some e) (hl : e.state = .leaving) :
    s.applyWithdraw q k tag = ⟨s.releasePlace, false⟩ := by
  simp only [State.applyWithdraw, h, Entry.toLeaving_of_leaving hl]

theorem State.applyWithdraw_of_target (h : s.targetOf q k tag = some e) (hl : e.state ≠ .leaving) :
    s.applyWithdraw q k tag = ⟨(((s.finalRecord k tag e).setEntry k tag { e with
      owed := if e.owed.drop then e.owed else { Owed.none with drop := true }
      body := .leaving e.delay }).unbookSlot k tag).leaveHunt k tag, true⟩ := by
  simp only [State.applyWithdraw, h, Entry.toLeaving_of_ne hl, State.rebook_voidQueued, State.unbookSlot_leaveHunt]

/-! ## CONTRACT and UNCAP (R110, R160) -/

theorem State.applyContract_of_none (h : s.targetOf q k tag = none) (v : Contract) :
    s.applyContract q k tag v = ⟨s.rebook k tag, false⟩ := by
  simp only [State.applyContract, h]

theorem State.applyContract_of_leaving (h : s.targetOf q k tag = some e) (hl : e.state = .leaving) (v : Contract) :
    s.applyContract q k tag v = ⟨s.rebook k tag, false⟩ := by
  simp only [State.applyContract, h, if_pos hl]

theorem State.applyContract_of_target (h : s.targetOf q k tag = some e) (hl : e.state ≠ .leaving) (v : Contract) :
    s.applyContract q k tag v = ⟨(s.setEntry k tag { e with contract := v }).rebook k tag, true⟩ := by
  simp only [State.applyContract, h, if_neg hl]

theorem State.applyUncap_of_none (h : s.targetOf q k tag = none) : s.applyUncap q k tag = ⟨s, false⟩ := by
  simp only [State.applyUncap, h]

theorem State.applyUncap_of_target (h : s.targetOf q k tag = some e) :
    s.applyUncap q k tag = ⟨s.setEntry k tag { e with capped := false }, true⟩ := by
  simp only [State.applyUncap, h]

theorem State.setEntry_setEntry (e e' : Entry) : (s.setEntry k tag e).setEntry k tag e' = s.setEntry k tag e' :=
  congrArg (fun r => { s with roster := r }) (Store.write_write _ _ _ _)

theorem State.rebook_of_entry (hw : Store.Wf s.roster) (he : s.entry k tag = some e) :
    s.rebook k tag = s.setEntry k tag { e with
      booked := bookedFor e.contract.c (queuedRates s.queue k tag e.occupied) } := State.modEntry_of_entry hw he _

theorem State.rebook_setEntry (hw : Store.Wf s.roster) (e : Entry) :
    (s.setEntry k tag e).rebook k tag = s.setEntry k tag { e with
      booked := bookedFor e.contract.c (queuedRates s.queue k tag e.occupied) } :=
  (State.rebook_of_entry (Store.wf_write _ _ _ hw) (State.setEntry_entry s k tag e)).trans (State.setEntry_setEntry _ _)

theorem State.rebook_of_vacant (hw : Store.Wf s.roster) (he : s.entry k tag = none) : s.rebook k tag = s :=
  State.modEntry_of_self hw fun _ h => absurd (he.symm.trans h) nofun

/-- Settles O46, by the change, its target and the state of its entry. -/
theorem otherChangesApplied : Obligations.OtherChangesApplied := by
  intro s q hcanon t carried isVoid released
  have happlied : ∀ {h : Handed}, s.applyChange q = h → t = h.state ∧ (s.applyChange q).carriedOut = h.carriedOut :=
    fun h => ⟨congrArg Handed.state h, congrArg Handed.carriedOut h⟩
  refine ⟨fun b hq => ?_, fun k name v hq => ?_, fun k hq => ?_, fun hq => ?_, fun k tag htag => ?_⟩
  · exact happlied (h := ⟨{ s with band := b }, true⟩) (by simp only [State.applyChange, hq])
  · exact happlied (h := ⟨s.setTree k { s.tree k with settings := (s.tree k).settings.put name v }, true⟩)
      (by simp only [State.applyChange, hq]; rfl)
  · exact happlied (h := ⟨s.closeTree k, true⟩) (by simp only [State.applyChange, hq, State.closeTrees])
  · have hall : s.closeTrees none = (((s.closeTree 0).closeTree 1).closeTree 2).closeTree 3 := by
      simp only [State.closeTrees, allFour, List.foldl_cons, List.foldl_nil]
    exact happlied (h := ⟨(((s.closeTree 0).closeTree 1).closeTree 2).closeTree 3, true⟩)
      (by simp only [State.applyChange, hq, hall])
  intro rebooked
  have huncap : q.change = .uncap k tag → s.applyChange q = s.applyUncap q k tag := fun hq => by
    simp only [State.applyChange, hq]
  have hcontract : ∀ {v : Contract}, q.change = .contract k tag v → s.applyChange q = s.applyContract q k tag v := fun hq => by
    simp only [State.applyChange, hq]
  have hwithdraw : q.change = .withdraw k tag → s.applyChange q = s.applyWithdraw q k tag := fun hq => by
    simp only [State.applyChange, hq]
  have hnone : s.targetOf q k tag = none →
      (q.change = .uncap k tag → t = s ∧ isVoid) ∧
      (∀ v : Contract, q.change = .contract k tag v → t = s.rebook k tag ∧ isVoid) ∧
      (q.change = .withdraw k tag → t = released ∧ isVoid) := fun h =>
    ⟨fun hq => happlied ((huncap hq).trans (State.applyUncap_of_none h)),
      fun v hq => happlied ((hcontract hq).trans (State.applyContract_of_none h v)),
      fun hq => happlied ((hwithdraw hq).trans (State.applyWithdraw_of_none h))⟩
  refine ⟨fun he => ?_, fun e he => ⟨fun h => ?_, fun hv hl => ?_⟩⟩
  · have h := hnone (State.targetOf_of_vacant he)
    rwa [State.rebook_of_vacant hcanon.1 he] at h
  · have h := hnone (h.elim State.targetOf_of_voided (State.targetOf_of_later he))
    rwa [State.rebook_of_entry hcanon.1 he] at h
  have ht := State.targetOf_of_entry hv he hl
  refine ⟨fun hq => happlied ((huncap hq).trans (State.applyUncap_of_target ht)), fun v hq => ⟨fun hs => ?_, fun hs => ?_⟩,
    fun hq => ⟨fun hs => happlied ((hwithdraw hq).trans (State.applyWithdraw_of_leaving ht hs)), fun hs => ?_⟩⟩
  · have h := happlied ((hcontract hq).trans (State.applyContract_of_target ht hs v))
    rwa [State.rebook_setEntry hcanon.1] at h
  · have h := happlied ((hcontract hq).trans (State.applyContract_of_leaving ht hs v))
    rwa [State.rebook_of_entry hcanon.1 he] at h
  obtain ⟨hstate, hcarried⟩ := happlied ((hwithdraw hq).trans (State.applyWithdraw_of_target ht hs))
  have hroster : (s.finalRecord k tag e).roster = s.roster := State.finalRecord_roster tag e
  obtain ⟨hqueue, htrees, hbooked⟩ := State.finalRecord_keeps (s := s) (k := k) (tag := tag) e
  refine ⟨hcarried, _, hstate, ?_, fun j tag' htag' hne => ?_, ?_, htrees, hbooked, fun hm => ?_, fun m hm => ?_⟩
  · refine (State.modEntry_entry _ _ _ _).trans ?_
    exact congrArg (Option.map Entry.unbooked) (State.setEntry_entry (s.finalRecord k tag e) k tag _)
  · have hslot := slotOf_ne htag htag' hne
    refine (State.modEntry_entry_ne _ _ hslot).trans ((State.setEntry_entry_ne (s := s.finalRecord k tag e) _ hslot).trans ?_)
    exact congrArg (Store.read (slotOf j tag')) hroster
  · exact congrArg (List.map fun x : ChangeEntry => if x.change.names k tag then { x with voided := true } else x) hqueue
  · rw [State.finalRecord_of_closed hm]
    exact ⟨rfl, rfl, rfl, rfl⟩
  · have hfinal := State.finalRecord_eq hm e
    refine ⟨congrArg State.meters hfinal, congrArg State.watches hfinal, congrArg (fun u : State => u.journal.records) hfinal, ?_⟩
    intro held
    have hports := State.finalRecord_ports hm e
    refine ⟨fun h => hports.trans (if_pos h), fun h => hports.trans (if_neg fun hc => ?_)⟩
    exact h.elim (fun hle => absurd hc.1 (Nat.not_lt.2 hle)) fun hlt => absurd hc.2 (Nat.not_le.2 hlt)

end Sys2Proof.Machine
end

section
/-! PROOFS. The change requests (O43): the checks they share, then what each stages. -/

namespace Sys2Proof.Machine

variable {s : State} {p : Port} {q : Byte} {k : TreeId} {n tag : Nat} {e : Entry}

/-! ## The checks of a request that names a home -/

section
variable {ok : Bool} {wrong : Entry → Bool} {go : TreeId → Entry → State}

theorem tagOk_eq_false (h : tag = 0 ∨ 128 < tag) : tagOk tag = false := by
  rw [tagOk, Bool.and_eq_false_iff]
  exact h.imp (fun h => decide_eq_false (by omega)) fun h => decide_eq_false (by omega)

theorem State.withHome_of_badArgument (h : (4 ≤ n ∨ tag = 0 ∨ 128 < tag) ∨ ok = false) :
    s.withHome p q n tag ok wrong go = s.reply p q .badArgument .nothing := by
  by_cases hn : 4 ≤ n
  · simp only [State.withHome, treeOf_eq_none hn]
    rfl
  · have hbad : tagOk tag = false ∨ ok = false := h.imp_left fun h => tagOk_eq_false (h.resolve_left hn)
    unfold State.withHome
    split
    · rfl
    · exact if_pos hbad

section
variable (htag : tagOk tag = true) (hok : ok = true)
include htag hok

theorem State.withHome_of_vacant (he : s.entry k tag = none) :
    s.withHome p q k.val tag ok wrong go = s.reply p q .noSuchHome .nothing := by
  simp only [State.withHome, treeOf_val, htag, hok, he, Bool.true_eq_false, or_self, if_false]
  rfl

theorem State.withHome_of_wrong (he : s.entry k tag = some e) (hw : wrong e = true) :
    s.withHome p q k.val tag ok wrong go = s.reply p q .wrongState .nothing := by
  simp only [State.withHome, treeOf_val, htag, hok, he, hw, Bool.true_eq_false, or_self, if_false, if_true]
  rfl

theorem State.withHome_of_right (he : s.entry k tag = some e) (hw : wrong e = false) :
    s.withHome p q k.val tag ok wrong go = go k e := by
  simp only [State.withHome, treeOf_val, htag, hok, he, hw, Bool.true_eq_false, Bool.false_eq_true, or_self, if_false]

end
end

theorem Entry.fenceRefused_iff : e.fenceRefused = true ↔ e.state = .heard ∨ e.state = .leaving ∨ e.trial = true := by
  simp only [Entry.fenceRefused, Bool.or_eq_true, decide_eq_true_eq, or_assoc]

/-! ## What each request comes to -/

theorem exec_fence (hfree : PortFree s .supervisor) : exec (.fence .supervisor q n tag) s = .next (s.takeFence .supervisor q n tag) :=
  exec_of_portFree (r := .fence n tag) rfl hfree rfl

theorem exec_release (hfree : PortFree s .supervisor) :
    exec (.release .supervisor q n tag) s = .next (s.takeRelease .supervisor q n tag) :=
  exec_of_portFree (r := .release n tag) rfl hfree rfl

theorem exec_uncap (hfree : PortFree s .accounting) : exec (.uncap .accounting q n tag) s = .next (s.takeUncap .accounting q n tag) :=
  exec_of_portFree (r := .uncap n tag) rfl hfree rfl

theorem exec_withdraw (hfree : PortFree s .line) : exec (.withdraw .line q n tag) s = .next (s.takeWithdraw .line q n tag) :=
  exec_of_portFree (r := .withdraw n tag) rfl hfree rfl

theorem exec_setContract (hfree : PortFree s .accounting) (c pk w : Nat) :
    exec (.setContract .accounting q n tag c pk w) s = .next (s.takeSetContract .accounting q n tag c pk w) :=
  exec_of_portFree (r := .setContract n tag c pk w) rfl hfree rfl

theorem exec_switchBand (hfree : PortFree s .accounting) :
    exec (.switchBand .accounting q n) s = .next (s.takeSwitchBand .accounting q n) :=
  exec_of_portFree (r := .switchBand n) rfl hfree rfl

theorem exec_closeInterval (hfree : PortFree s .accounting) :
    exec (.closeInterval .accounting q n) s = .next (s.takeClose .accounting q n) :=
  exec_of_portFree (r := .closeInterval n) rfl hfree rfl

/-- A change that books nothing on a tree joins the queue of an open port, or is held (R112, R117). -/
theorem stageChange_spec {x : State} {c : Change} (hc : x.enterQueue p c x.round = { x with queue := queueWith x p c }) :
    (QueueOpen x p → x.stageChange p q c = { x with queue := queueWith x p c }.reply p q .staged .nothing) ∧
    (¬ QueueOpen x p → x.stageChange p q c = heldWith x p q c) :=
  ⟨fun h => (State.stageChange_of_open h q c).trans (congrArg (fun u : State => u.reply p q .staged .nothing) hc),
    fun h => State.stageChange_of_not_open h q c⟩

/-- SET CONTRACT of an occupant with its arguments in range, by the booking check (R108). -/
theorem takeSetContract_of_right {c pk w : Nat} (htag : tagOk tag = true) (he : s.entry k tag = some e)
    (hok : contractOk c pk w = true) (hs : e.state ≠ .leaving) :
    s.takeSetContract p q k.val tag c pk w =
      if s.bookingIfContract k tag e c + (s.tree k).bookedCall + (s.tree k).bookedDark ≤ 1875 then
        s.stageChange p q (.contract k tag { c := c, p := pk, w := w })
      else s.reply p q .overbook .nothing :=
  State.withHome_of_right htag hok he (decide_eq_false hs)

theorem enterQueue_contract (v : Contract) (htag : tagOk tag = true) (he : s.entry k tag = some e) :
    let t := s.enterQueue p (.contract k tag v) s.round
    t = { s with queue := queueWith s p (.contract k tag v), roster := t.roster } ∧
    t.entry k tag = some { e with
      booked := bookedFor e.contract.c (queuedRates (queueWith s p (.contract k tag v)) k tag e.occupied) } ∧
    ∀ (j : TreeId) (tag' : Nat), tagOk tag' = true → j ≠ k ∨ tag' ≠ tag → t.entry j tag' = s.entry j tag' := by
  intro t
  refine ⟨rfl, ?_, fun j tag' htag' hne => State.modEntry_entry_ne _ _ (slotOf_ne htag htag' hne)⟩
  refine (State.modEntry_entry _ _ _ _).trans ?_
  have he' : ({ s with queue := queueWith s p (.contract k tag v) } : State).entry k tag = some e := he
  exact congrArg _ he'

theorem exec_of_take {i : Instr} {t t' : State} (h : exec i s = .next t) (ht : t = t') : exec i s = .next t' := ht ▸ h

/-- A request that has passed its checks goes the way of its change. -/
theorem exec_of_staged {i : Instr} {x : State} {c : Change} (h : exec i s = .next (x.stageChange p q c))
    (hc : x.enterQueue p c x.round = { x with queue := queueWith x p c }) :
    (QueueOpen x p → exec i s = .next ({ x with queue := queueWith x p c }.reply p q .staged .nothing)) ∧
    (¬ QueueOpen x p → exec i s = .next (heldWith x p q c)) :=
  ⟨fun ho => exec_of_take h ((stageChange_spec hc).1 ho), fun ho => exec_of_take h ((stageChange_spec hc).2 ho)⟩

/-- Settles O43: what passes its checks, then what each check refuses. -/
theorem changeRequests : Obligations.ChangeRequests := by
  refine ⟨?_, ?_⟩
  · intro s q goes
    refine ⟨fun k tag e htag he => ⟨fun hheard hleaving htrial => ?_, fun hs hfree => ?_, fun hs hroom hfree => ?_,
      fun hs hfull hfree => ?_, fun c p w hok hs hfree => ?_⟩, fun b hfree => ?_, fun k hfree => ?_, fun hfree => ?_⟩
    · have hok : e.fenceRefused = false := Bool.eq_false_iff.2 fun hc =>
        (Entry.fenceRefused_iff.1 hc).elim hheard fun h => h.elim hleaving (by rw [htrial]; decide)
      exact ⟨fun hfree => exec_of_staged (exec_of_take (exec_fence hfree) (State.withHome_of_right htag rfl he hok)) rfl,
        fun hfree => exec_of_staged (exec_of_take (exec_release hfree) (State.withHome_of_right htag rfl he hok)) rfl⟩
    · exact exec_of_staged (exec_of_take (exec_uncap hfree) (State.withHome_of_right htag rfl he (decide_eq_false hs))) rfl
    · exact exec_of_staged (exec_of_take (exec_withdraw hfree)
        ((State.withHome_of_right htag rfl he (decide_eq_false hs)).trans (if_neg (Nat.not_le.2 hroom)))) rfl
    · exact exec_of_take (exec_withdraw hfree)
        ((State.withHome_of_right htag rfl he (decide_eq_false hs)).trans (if_pos hfull))
    · intro change fits
      have htake := exec_of_take (exec_setContract (q := q) hfree c p w) (takeSetContract_of_right htag he hok hs)
      refine ⟨fun hfits hopen => ?_, fun hfits hopen => ?_, fun hfits => exec_of_take htake (if_neg hfits)⟩
      · obtain ⟨hframe, hentry, hrest⟩ := enterQueue_contract (p := .accounting) { c := c, p := p, w := w } htag he
        exact ⟨_, exec_of_take htake ((if_pos hfits).trans (State.stageChange_of_open hopen q change)), hframe, hentry, hrest⟩
      · exact exec_of_take htake ((if_pos hfits).trans (State.stageChange_of_not_open hopen q change))
    · exact exec_of_staged (exec_of_take (exec_switchBand hfree)
        (by simp only [State.takeSwitchBand, treeOf_val])) rfl
    · have hne : k.val ≠ 255 := by omega
      exact exec_of_staged (exec_of_take (exec_closeInterval hfree)
        (by simp only [State.takeClose, if_neg hne, treeOf_val])) rfl
    · exact exec_of_staged (exec_closeInterval hfree) rfl
  · intro s q n tag c p w badPlace refused
    refine ⟨fun hfree => ⟨fun hbad => ?_, fun k hk htag => ⟨fun he => ?_, fun e he h => ?_⟩⟩,
      fun hfree => ⟨fun hbad => ?_, fun hbad => ?_, fun hn => ⟨?_, fun hall => ?_⟩, fun k hk htag =>
        ⟨fun he => ⟨?_, fun hok => ?_⟩, fun e he hl => ⟨?_, fun hok => ?_⟩⟩⟩,
      fun hfree => ⟨fun hbad => ?_, fun k hk htag => ⟨fun he => ?_, fun e he hl => ?_⟩⟩⟩
    · exact ⟨exec_of_take (exec_fence hfree) (State.withHome_of_badArgument (.inl hbad)),
        exec_of_take (exec_release hfree) (State.withHome_of_badArgument (.inl hbad))⟩
    · subst hk
      exact ⟨exec_of_take (exec_fence hfree) (State.withHome_of_vacant htag rfl he),
        exec_of_take (exec_release hfree) (State.withHome_of_vacant htag rfl he)⟩
    · subst hk
      have hw := Entry.fenceRefused_iff.2 h
      exact ⟨exec_of_take (exec_fence hfree) (State.withHome_of_wrong htag rfl he hw),
        exec_of_take (exec_release hfree) (State.withHome_of_wrong htag rfl he hw)⟩
    · exact exec_of_take (exec_uncap hfree) (State.withHome_of_badArgument (.inl hbad))
    · exact exec_of_take (exec_setContract hfree c p w) (State.withHome_of_badArgument hbad)
    · exact exec_of_take (exec_switchBand hfree) (by simp only [State.takeSwitchBand, treeOf_eq_none hn]; rfl)
    · exact exec_of_take (exec_closeInterval hfree) (by simp only [State.takeClose, if_neg hall, treeOf_eq_none hn]; rfl)
    · subst hk
      exact exec_of_take (exec_uncap hfree) (State.withHome_of_vacant htag rfl he)
    · subst hk
      exact exec_of_take (exec_setContract hfree c p w) (State.withHome_of_vacant htag hok he)
    · subst hk
      exact exec_of_take (exec_uncap hfree) (State.withHome_of_wrong htag rfl he (decide_eq_true hl))
    · subst hk
      exact exec_of_take (exec_setContract hfree c p w) (State.withHome_of_wrong htag hok he (decide_eq_true hl))
    · exact exec_of_take (exec_withdraw hfree) (State.withHome_of_badArgument (.inl hbad))
    · subst hk
      exact exec_of_take (exec_withdraw hfree) (State.withHome_of_vacant htag rfl he)
    · subst hk
      exact exec_of_take (exec_withdraw hfree) (State.withHome_of_wrong htag rfl he (decide_eq_true hl))

end Sys2Proof.Machine
end

section
/-! PROOFS. Upstream reception: bursts that are accepted (O28, O29, O30). -/

namespace Sys2Proof.Machine

variable {s : State} {k : TreeId} {round : Round} {g : Grant} {e : Entry} {tag : Nat}

/-! ## The judgement of a grant (R74 to R76) -/

theorem Tree.judges_of {x : Tree} (hp : x.phase = .running) (hm : x.checker.muted = false) : x.judges = true := by
  simp only [Tree.judges, hp, hm, decide_true, Bool.not_false, Bool.and_self]

theorem State.grantsOf_current {r : PlanRecord} (hr : (s.tree k).record s.round = some r) : s.grantsOf k s.round = r.grants := by
  simp only [State.grantsOf, hr, if_true]

theorem State.markOf_current (tag : Nat) : s.markOf k s.round tag = Store.read tag (s.tree k).checker.marks := if_pos rfl

theorem State.grantee_of_occupant (he : s.entry k g.tag = some e) (ho : e.occupied = g.occupied) : s.grantee k g = some e := by
  simp only [State.grantee, he, if_pos ho]

theorem State.grantee_of_vacant (he : s.entry k g.tag = none) : s.grantee k g = none := by
  simp only [State.grantee, he]

theorem State.grantee_of_other (he : s.entry k g.tag = some e) (ho : e.occupied ≠ g.occupied) : s.grantee k g = none := by
  simp only [State.grantee, he, if_neg ho]

/-- The end of a burst that belongs to a grant without an outcome, and over in time: what its reading leads to (R76). -/
theorem State.burstEnds_of_grant {b : Burst} (hp : (s.tree k).phase = .running) (hm : (s.tree k).checker.muted = false)
    (hg : (s.grantsOf k round).find? (fun x => x.accepts b.start) = some g) (hu : undecided (s.markOf k round g.tag) = true)
    (hstop : b.stop ≤ g.latestEnd) :
    (∀ packets, judgeBurst b g = .accepted packets → s.burstEnds k round b =
      (s.acceptBurst k round g (b.start - g.dueStart) b.report packets).setMark k round g.tag (.heard true b.stop false true)) ∧
    (judgeBurst b g = .damaged → s.burstEnds k round b =
      (s.damageBurst k g).setMark k round g.tag (.heard false b.stop false true)) ∧
    (judgeBurst b g = .foreign → s.burstEnds k round b =
      if s.markOf k round g.tag = some .burning then (s.missGrant k g).setMark k round g.tag .misplaced
      else s.setMark k round g.tag .foreign) := by
  have hlate : ¬ g.latestEnd < b.stop := Int.not_lt.2 hstop
  refine ⟨fun packets hj => ?_, fun hj => ?_, fun hj => ?_⟩ <;>
    simp only [State.burstEnds, Tree.judges_of hp hm, hg, hu, hj, if_true, if_neg hlate]

theorem judgeBurst_of_accepted {b : Burst} {packets : List (List Byte)} (hc : b.checkOk = true) (ht : b.tag = g.tag)
    (hy : b.type = 1) (hb : b.packets = some packets) : judgeBurst b g = .accepted packets := by
  simp only [judgeBurst, hc, ht, hy, hb, and_self, if_true]

/-! ## The delay of an accepted burst (R77) -/

/-- A part whose slot holds the entry it is given: replacing that entry by what a rule makes of it gives the same part with the
new entry. -/
structure SlotHolds (k : TreeId) (tag : Nat) (part : Entry → State) : Prop where
  entry : ∀ e, (part e).entry k tag = some e
  modEntry : ∀ e f, (part e).modEntry k tag f = part (f e)

theorem SlotHolds.setEntry (hw : Store.Wf s.roster) : SlotHolds k tag (s.setEntry k tag) where
  entry := State.setEntry_entry s k tag
  modEntry e f := (State.modEntry_of_entry (Store.wf_write _ _ _ hw) (State.setEntry_entry s k tag e) f).trans
    (State.setEntry_setEntry e (f e))

theorem SlotHolds.raise {part : Entry → State} (h : SlotHolds k tag part) (d : Detail) :
    SlotHolds k tag fun e => (part e).raise k d where
  entry := h.entry
  modEntry e f := congrArg (fun u : State => u.raise k d) (h.modEntry e f)

theorem State.setEntry_of_entry (hw : Store.Wf s.roster) (he : s.entry k tag = some e) : s.setEntry k tag e = s :=
  (State.modEntry_of_entry hw he id).symm.trans (State.modEntry_of_self hw fun _ _ => rfl)

section
variable {d : Nat} {offset : Int}

theorem State.correctDelay_of_small (h : offset.natAbs ≤ 4) : s.correctDelay k tag offset = s := if_pos h

theorem State.correctDelay_of_large (h : 4 < offset.natAbs) (he : s.entry k tag = some e) (hd : e.delay = some d) :
    let target := (s.tree k).settings.target
    let d' := min target ((d : Int) - offset).toNat
    let adjusted := s.setEntry k tag ((e.setDelay d').owe .adjust)
    s.correctDelay k tag offset =
      if (d : Int) - offset < 0 ∨ (target : Int) < (d : Int) - offset then
        adjusted.raise k (.reachLimit k tag e.serial offset d d')
      else adjusted := by
  simp only [State.correctDelay, if_neg (Nat.not_le.2 h), he, hd]
  rfl

end

/-! ## The effects of an accepted burst (R78 to R81) -/

/-- The packets of a burst join the delivery buffer where they all fit, and their bytes count (R80). -/
theorem State.deliver_eq (packets : List (List Byte)) :
    let bytes := (packets.map List.length).sum
    s.deliver k tag packets =
      if (s.upBuffer.map fun p => p.payload.length).sum + bytes ≤ 262144 then
        { s with upBuffer := s.upBuffer ++
          packets.map fun p => ({ tree := k, tag := tag, payload := p } : UpPacket) }.countUp k tag bytes
      else s := by
  have hbytes : upBytes (packets.map fun p => ({ tree := k, tag := tag, payload := p } : UpPacket)) =
      (packets.map List.length).sum := by
    rw [upBytes, List.map_map]
    rfl
  simp only [State.deliver, hbytes]
  rfl

/-- How an accepted burst is taken, by the state of its entry: the delay d it held, the body it gets with a new one, and what a
greeting brings besides (R78). -/
def AcceptedAs (k : TreeId) (round : Round) (g : Grant) (e : Entry) (need d : Nat) (becomes : Nat → Body)
    (greeted : State → State) : Prop :=
  (∃ f : Active, e.body = .active f ∧ d = f.e ∧
      becomes = fun d' => .active { f with e := d', need := need, missCount := 0 }) ∧ greeted = id ∨
    (∃ f : Fenced, e.body = .fenced f ∧ d = f.e ∧ becomes = fun d' => .fenced { f with e := d', need := need }) ∧
      greeted = id ∨
    (∃ f : Silent, e.body = .silent f ∧ d = f.e ∧ becomes = fun d' => .silent { f with e := d' }) ∧ greeted = id ∨
    ∃ f : Timed, e.body = .timed f ∧ g.kind = .greeting ∧ d = f.e ∧
      (becomes = fun d' => .active { e := d', missCount := 0, need := need, credit := 0, lastGranted := some round
                                     history := [], hushed := f.hushed }) ∧
      greeted = fun u => (if f.former = none then u.openMeters k g.tag else u).raise k
        (.homeActive k g.tag e.serial f.former.isSome)

theorem AcceptedAs.delay {need d : Nat} {becomes : Nat → Body} {greeted : State → State}
    (h : AcceptedAs k round g e need d becomes greeted) : e.delay = some d := by
  obtain ⟨⟨f, hf, rfl, -⟩, -⟩ | ⟨⟨f, hf, rfl, -⟩, -⟩ | ⟨⟨f, hf, rfl, -⟩, -⟩ | ⟨f, hf, -, rfl, -⟩ := h <;>
    simp only [Entry.delay, hf]

/-- What is left of an accepted burst once the delay is corrected: the entry's new body, the greeting, the packets. -/
theorem State.acceptBurst_eq {report d d' : Nat} {o : Owed} {becomes : Nat → Body} {greeted : State → State}
    {part : Entry → State} {offset : Int} (hpart : SlotHolds k g.tag part) (hg : s.grantee k g = some e)
    (hcorrected : s.correctDelay k g.tag offset = part { e.setDelay d' with owed := o })
    (h : AcceptedAs k round g e (needOf report) d becomes greeted) (packets : List (List Byte)) :
    s.acceptBurst k round g offset report packets =
      (greeted (part { e with owed := o, body := becomes d' })).deliver k g.tag packets := by
  obtain ⟨serial, occupied, contract, booked, capped, owed, body⟩ := e
  obtain ⟨⟨f, hf, rfl, rfl⟩, rfl⟩ | ⟨⟨f, hf, rfl, rfl⟩, rfl⟩ | ⟨⟨f, hf, rfl, rfl⟩, rfl⟩ | ⟨f, hf, hk, rfl, rfl, rfl⟩ := h
  · obtain rfl : body = .active f := hf
    simp only [State.acceptBurst, hg, hcorrected, hpart.modEntry]
    rfl
  · obtain rfl : body = .fenced f := hf
    simp only [State.acceptBurst, hg, hcorrected, hpart.modEntry]
    rfl
  · obtain rfl : body = .silent f := hf
    simp only [State.acceptBurst, hg, hcorrected]
    rfl
  · obtain rfl : body = .timed f := hf
    simp only [State.acceptBurst, hg, hcorrected, if_pos hk, State.greet, hpart.entry, Entry.setDelay, hpart.modEntry]
    cases hformer : f.former <;> rfl

theorem AcceptedAs.setDelay {need d : Nat} {becomes : Nat → Body} {greeted : State → State}
    (h : AcceptedAs k round g e need d becomes greeted) : e.setDelay d = e := by
  obtain ⟨serial, occupied, contract, booked, capped, owed, body⟩ := e
  obtain ⟨⟨f, rfl, rfl, -⟩, -⟩ | ⟨⟨f, rfl, rfl, -⟩, -⟩ | ⟨⟨f, rfl, rfl, -⟩, -⟩ | ⟨f, rfl, -, rfl, -⟩ := h <;> rfl

theorem Entry.setDelay_owe_adjust (e : Entry) (d : Nat) :
    (e.setDelay d).owe .adjust = { e.setDelay d with owed := e.owed.add .adjust } := by
  obtain ⟨serial, occupied, contract, booked, capped, owed, body⟩ := e
  cases body <;> rfl

/-- What an accepted burst leaves, by its offset (R77, R78). -/
theorem State.acceptBurst_spec {report d : Nat} {becomes : Nat → Body} {greeted : State → State} {offset : Int}
    (hw : Store.Wf s.roster) (he : s.entry k g.tag = some e) (ho : e.occupied = g.occupied)
    (h : AcceptedAs k round g e (needOf report) d becomes greeted) (packets : List (List Byte)) :
    let target := (s.tree k).settings.target
    let d' := min target ((d : Int) - offset).toNat
    let adjusted := s.setEntry k g.tag { e with owed := e.owed.add .adjust, body := becomes d' }
    let accepted := s.acceptBurst k round g offset report packets
    (offset.natAbs ≤ 4 →
      accepted = (greeted (s.setEntry k g.tag { e with body := becomes d })).deliver k g.tag packets) ∧
    (4 < offset.natAbs → 0 ≤ (d : Int) - offset → (d : Int) - offset ≤ target →
      accepted = (greeted adjusted).deliver k g.tag packets) ∧
    (4 < offset.natAbs → (d : Int) - offset < 0 ∨ (target : Int) < (d : Int) - offset →
      accepted = (greeted (adjusted.raise k (.reachLimit k g.tag e.serial offset d d'))).deliver k g.tag packets) := by
  intro target d' adjusted accepted
  have hg := State.grantee_of_occupant he ho
  have hpart : SlotHolds k g.tag (s.setEntry k g.tag) := .setEntry hw
  refine ⟨fun hsmall => ?_, fun hlarge hlo hhi => ?_, fun hlarge hout => ?_⟩
  · refine State.acceptBurst_eq (o := e.owed) hpart hg ?_ h packets
    rw [State.correctDelay_of_small hsmall, h.setDelay]
    exact (State.setEntry_of_entry hw he).symm
  · refine State.acceptBurst_eq hpart hg ?_ h packets
    refine (State.correctDelay_of_large hlarge he h.delay).trans ((if_neg fun hc => ?_).trans ?_)
    · exact hc.elim (Int.not_lt.2 hlo) (Int.not_lt.2 hhi)
    · rw [Entry.setDelay_owe_adjust]
  · refine State.acceptBurst_eq (hpart.raise (.reachLimit k g.tag e.serial offset d d')) hg ?_ h packets
    refine (State.correctDelay_of_large hlarge he h.delay).trans ((if_pos hout).trans ?_)
    rw [Entry.setDelay_owe_adjust]

theorem State.acceptBurst_of_none (hg : s.grantee k g = none) (offset : Int) (report : Nat) (packets : List (List Byte)) :
    s.acceptBurst k round g offset report packets = s := by
  simp only [State.acceptBurst, hg]

/-- An entry whose state takes no burst is left as it is (R78, R60). -/
theorem State.acceptBurst_of_idle (hg : s.grantee k g = some e)
    (h : e.state = .heard ∨ e.state = .leaving ∨ e.state = .timed ∧ g.kind ≠ .greeting) (offset : Int) (report : Nat)
    (packets : List (List Byte)) : s.acceptBurst k round g offset report packets = s := by
  obtain ⟨serial, occupied, contract, booked, capped, owed, body⟩ := e
  cases body with
  | heard f => simp only [State.acceptBurst, hg]
  | leaving d => simp only [State.acceptBurst, hg]
  | timed f =>
    have hk : g.kind ≠ .greeting := by simpa [Entry.state] using h
    simp only [State.acceptBurst, hg, if_neg hk]
  | active f => simp [Entry.state] at h
  | silent f => simp [Entry.state] at h
  | fenced f => simp [Entry.state] at h

/-- Settles O29, by the entry the grant was given to and the offset of the burst. -/
theorem burstsByState : Obligations.BurstsByState := by
  intro s k round b g packets hcanon hp hm hg htag hu hc ht hy hb hstop bytes delivered does offset target need
  have hends : ∀ {t}, s.acceptBurst k round g offset b.report packets = t → does t := fun h =>
    congrArg Host.Outcome.next (((State.burstEnds_of_grant hp hm hg hu hstop).1 packets
      (judgeBurst_of_accepted hc ht hy hb)).trans (congrArg (fun u : State => u.setMark k round g.tag _) h))
  have hneed : needOf b.report = need := rfl
  refine ⟨fun he => hends (State.acceptBurst_of_none (State.grantee_of_vacant he) _ _ _), fun e he =>
    ⟨fun h => hends ?_, fun ho d becomes greeted h => ?_⟩⟩
  · by_cases ho : e.occupied = g.occupied
    · exact State.acceptBurst_of_idle (State.grantee_of_occupant he ho) (h.resolve_left (absurd ho)) _ _ _
    · exact State.acceptBurst_of_none (State.grantee_of_other he ho) _ _ _
  · intro d' adjusted
    obtain ⟨hsmall, hwithin, hclamped⟩ := State.acceptBurst_spec (offset := offset) (report := b.report) hcanon.1 he ho h packets
    exact ⟨fun hl => hends ((hsmall hl).trans (State.deliver_eq packets)),
      fun hl hlo hhi => hends ((hwithin hl hlo hhi).trans (State.deliver_eq packets)),
      fun hl hout => hends ((hclamped hl hout).trans (State.deliver_eq packets))⟩

/-! ## Bursts that fire no watch: an ACTIVE home (O28), a greeting (O30) -/

theorem State.countUp_of_unwatched (h : ∀ x ∈ s.watches, ¬ (x.2.tree = k ∧ x.2.tag = tag)) (n : Nat) :
    s.countUp k tag n = s.modMeters k tag fun m => m.addUp s.band n := by
  have hnone : (s.modMeters k tag fun m => m.addUp s.band n).watchesOn k tag = [] := by
    rw [State.watchesOn_eq, List.map_eq_nil_iff]
    exact List.filter_eq_nil_iff.2 fun x hx => by simpa using h x hx
  rw [State.countUp, State.testWatches, hnone, List.foldl_nil]

/-- Bytes that count with room left for them, or none, leave every mark as it is. -/
theorem Meters.addUp_of_le {m : Meters} {band : BandId} {n : Nat} (h : m.up.get band + n ≤ 281474976710655) :
    m.addUp band n = { m with up := m.up.set band (m.up.get band + n) } := by
  rw [Meters.addUp_eq, Nat.min_eq_right h, decide_eq_false (Nat.not_lt.2 h), Bool.or_false]

theorem Meters.addUp_zero {m : Meters} (h : m.inRange = true) (band : BandId) : m.addUp band 0 = m := by
  have hle : m.up.get band ≤ 281474976710655 := by
    simp only [Meters.inRange, Bool.and_eq_true, List.all_append, Quad.toList, List.all_cons, decide_eq_true_eq] at h
    obtain ⟨⟨⟨⟨⟨⟨hup, -⟩, -⟩, -⟩, -⟩, -⟩, -⟩ := h
    obtain ⟨h0, h1, h2, h3, -⟩ := hup
    fin_cases band <;> assumption
  rw [Meters.addUp_of_le (n := 0) hle, Nat.add_zero, Quad.set_get]

/-- A notice that is raised stands in the queue of its kind's port, with its detail (R179). -/
theorem noticesAfter_mem (n : Round) (t : Option TreeId) {d : Detail} (hover : ∀ d', d.over d' = d) (queue : List NoticeEntry) :
    ∃ x ∈ noticesAfter n t d queue, x.kind = d.kind ∧ x.tree = t ∧ x.detail = d := by
  induction queue with
  | nil => exact ⟨_, List.mem_singleton_self _, rfl, rfl, rfl⟩
  | cons y rest ih =>
    by_cases hkey : y.kind = d.kind ∧ y.tree = t
    · rw [noticesAfter, if_pos hkey]
      exact ⟨_, List.mem_cons_self, hkey.1, hkey.2, hover y.detail⟩
    · obtain ⟨x, hx, hspec⟩ := ih
      refine ⟨x, ?_, hspec⟩
      rw [noticesAfter, if_neg hkey]
      exact List.mem_cons_of_mem _ hx

/-- The packets of a burst whose slot no watch names, where they fit the delivery buffer. -/
theorem State.deliver_of_unwatched (h : ∀ x ∈ s.watches, ¬ (x.2.tree = k ∧ x.2.tag = tag)) {packets : List (List Byte)}
    (hfits : (s.upBuffer.map fun p => p.payload.length).sum + (packets.map List.length).sum ≤ 262144) :
    s.deliver k tag packets = { s with
      upBuffer := s.upBuffer ++ packets.map fun p => ({ tree := k, tag := tag, payload := p } : UpPacket)
      meters := Store.modify (slotOf k tag) (fun m => m.addUp s.band (packets.map List.length).sum) s.meters } :=
  (State.deliver_eq packets).trans ((if_pos hfits).trans (State.countUp_of_unwatched (s := { s with
    upBuffer := s.upBuffer ++ packets.map fun p => ({ tree := k, tag := tag, payload := p } : UpPacket) }) h _))

/-- An accepted burst of an ACTIVE home: its entry, and a notice at most besides (R77 to R79). -/
theorem State.acceptBurst_of_active {f : Active} {offset : Int} {report : Nat} (hw : Store.Wf s.roster)
    (he : s.entry k g.tag = some e) (ho : e.occupied = g.occupied) (hf : e.body = .active f) (hd : e.owed.drop = false)
    (packets : List (List Byte)) :
    ∃ (d : Nat) (o : Owed) (ports : Trio PortState),
      s.acceptBurst k round g offset report packets =
        ({ s.setEntry k g.tag { e with
            owed := o, body := .active { f with e := d, need := needOf report, missCount := 0 } } with
          ports := ports }).deliver k g.tag packets ∧
      (offset.natAbs ≤ 4 → d = f.e ∧ o = e.owed) ∧
      (4 < offset.natAbs → d = min (s.tree k).settings.target ((f.e : Int) - offset).toNat ∧
        o = { e.owed with adjust := true }) := by
  have hadjust : e.owed.add .adjust = { e.owed with adjust := true } := if_neg (by rw [hd]; decide)
  obtain ⟨hsmall, hwithin, hclamped⟩ := State.acceptBurst_spec (round := round) (offset := offset) (report := report) hw he ho
    (.inl ⟨⟨f, hf, rfl, rfl⟩, rfl⟩) packets
  by_cases hl : offset.natAbs ≤ 4
  · exact ⟨f.e, e.owed, _, hsmall hl, fun _ => ⟨rfl, rfl⟩, fun h => absurd hl (Nat.not_le.2 h)⟩
  · have hl := Nat.not_le.1 hl
    by_cases hin : 0 ≤ (f.e : Int) - offset ∧ (f.e : Int) - offset ≤ (s.tree k).settings.target
    · exact ⟨_, _, _, hwithin hl hin.1 hin.2, fun h => absurd h (Nat.not_le.2 hl), fun _ => ⟨rfl, hadjust⟩⟩
    · have hout : (f.e : Int) - offset < 0 ∨ ((s.tree k).settings.target : Int) < (f.e : Int) - offset := by omega
      exact ⟨_, _, _, hclamped hl hout, fun h => absurd h (Nat.not_le.2 hl), fun _ => ⟨rfl, hadjust⟩⟩

/-- Settles O28, by what stands after a burst of an ACTIVE home is accepted. -/
theorem activeBurstAccepted : Obligations.ActiveBurstAccepted := by
  intro s k b r g e f packets hsound hp hm hr hfind htag hu he ho hf hd hc ht hy hb hstop hwatch bytes offset hfits
  have hg : (s.grantsOf k s.round).find? (fun x => x.accepts b.start) = some g := by rwa [State.grantsOf_current hr]
  obtain ⟨d, o, ports, haccepted, hsmall, hlarge⟩ := State.acceptBurst_of_active (round := s.round) (offset := offset)
    (report := b.report) hsound.1.1 he ho hf hd packets
  have hends := ((State.burstEnds_of_grant hp hm hg (by rwa [State.markOf_current]) hstop).1 packets
    (judgeBurst_of_accepted hc ht hy hb))
  have hends := hends.trans (congrArg (fun u : State => u.setMark k s.round g.tag (.heard true b.stop false true))
    (haccepted.trans (State.deliver_of_unwatched (s := { s.setEntry k g.tag { e with
      owed := o, body := .active { f with e := d, need := needOf b.report, missCount := 0 } } with ports := ports })
      hwatch hfits)))
  refine ⟨_, congrArg Host.Outcome.next hends, ⟨d, o, ?_, hsmall, hlarge⟩, fun j tag' htag' hne => ?_, rfl, fun m hm hroom => ?_,
    rfl, rfl, rfl, rfl, rfl, ?_⟩
  · exact State.setEntry_entry s k g.tag _
  · exact State.setEntry_entry_ne (s := s) _ (slotOf_ne htag htag' hne)
  · refine (Store.read_modify_self (slotOf k g.tag) (fun m : Meters => m.addUp s.band bytes) s.meters).trans
      ((congrArg _ hm).trans ?_)
    rw [Option.map_some, Meters.addUp_of_le hroom]
  · exact (State.markOf_current _).symm.trans (State.markOf_setMark _ _ _ _)

/-- A burst without packets delivers nothing, and its count of 0 bytes changes nothing. -/
theorem State.deliver_nil (h : ∀ x ∈ s.watches, ¬ (x.2.tree = k ∧ x.2.tag = tag))
    (hm : ∀ x ∈ s.meters, x.2.inRange = true) : s.deliver k tag [] = s := by
  by_cases hfits : (s.upBuffer.map fun p => p.payload.length).sum + 0 ≤ 262144
  · have hmeters : Store.modify (slotOf k tag) (fun m => m.addUp s.band 0) s.meters = s.meters :=
      (Store.modify_congr (g := id) fun x hx _ => Meters.addUp_zero (hm x hx) s.band).trans
        ((List.map_congr_left fun x _ => ite_self x).trans (List.map_id _))
    refine (State.deliver_of_unwatched (packets := []) h hfits).trans ?_
    simp only [List.map_nil, List.append_nil, List.sum_nil, hmeters]
  · exact (State.deliver_eq []).trans (if_neg hfits)

theorem State.openMeters_of_closed (h : s.meterOf k tag = none) :
    s.openMeters k tag = { s with meters := Store.write (slotOf k tag) (zeroMeters s.round true) s.meters } := by
  simp only [State.openMeters, h]

theorem State.openMeters_cases (k : TreeId) (tag : Nat) :
    s.openMeters k tag = s ∨
      s.openMeters k tag = { s with meters := Store.write (slotOf k tag) (zeroMeters s.round true) s.meters } := by
  cases h : s.meterOf k tag with
  | none => exact .inr (State.openMeters_of_closed h)
  | some m => exact .inl (by simp only [State.openMeters, h])

/-- The meters a greeting may open are in range, as those beside them. -/
theorem State.openMeters_inRange (hm : ∀ x ∈ s.meters, x.2.inRange = true) :
    ∀ x ∈ (s.openMeters k tag).meters, x.2.inRange = true := by
  obtain h | h := s.openMeters_cases k tag
  · rwa [h]
  · rw [h]
    intro x hx
    obtain rfl | hx := Store.mem_write hx
    · exact zeroMeters_inRange _ _
    · exact hm x hx

/-- Settles O30, by what stands after a greeting is accepted. -/
theorem greetingMakesActive : Obligations.GreetingMakesActive := by
  intro s k b r g e f hsound hp hm hr hfind htag hu he ho hf hkind hc ht hy hb hoffset hstop hwatch hmeters
  have hg : (s.grantsOf k s.round).find? (fun x => x.accepts b.start) = some g := by rwa [State.grantsOf_current hr]
  have hends := ((State.burstEnds_of_grant hp hm hg (by rwa [State.markOf_current]) hstop).1 []
    (judgeBurst_of_accepted hc ht hy hb))
  obtain ⟨hsmall, -, -⟩ := State.acceptBurst_spec (round := s.round) (offset := b.start - g.dueStart) (report := b.report)
    hsound.1.1 he ho (.inr (.inr (.inr ⟨f, hf, hkind, rfl, rfl, rfl⟩))) []
  let greeted := s.setEntry k g.tag { e with
    body := .active { e := f.e, missCount := 0, need := needOf b.report, credit := 0, lastGranted := some s.round
                      history := [], hushed := f.hushed } }
  let opened := if f.former = none then greeted.openMeters k g.tag else greeted
  have hopened : opened.roster = greeted.roster ∧ opened.watches = s.watches ∧ opened.round = s.round ∧
      opened.routes = s.routes ∧ ∀ x ∈ opened.meters, x.2.inRange = true := by
    by_cases hformer : f.former = none
    · have ho : opened = greeted.openMeters k g.tag := if_pos hformer
      have hrange := State.openMeters_inRange (s := greeted) (k := k) (tag := g.tag) hmeters.1
      rw [ho]
      obtain h | h := greeted.openMeters_cases k g.tag <;> rw [h] at hrange ⊢ <;> exact ⟨rfl, rfl, rfl, rfl, hrange⟩
    · have ho : opened = greeted := if_neg hformer
      rw [ho]
      exact ⟨rfl, rfl, rfl, rfl, hmeters.1⟩
  obtain ⟨hroster, hwatches, hround, hroutes, hrange⟩ := hopened
  let home := Detail.homeActive k g.tag e.serial f.former.isSome
  have haccepted : s.acceptBurst k s.round g (b.start - g.dueStart) b.report [] = opened.raise k home :=
    (hsmall hoffset).trans (State.deliver_nil (s := opened.raise k home) (hwatches.symm ▸ hwatch) hrange)
  have hends := hends.trans (congrArg (fun u : State => u.setMark k s.round g.tag (.heard true b.stop false true)) haccepted)
  refine ⟨_, congrArg Host.Outcome.next hends, ?_, fun j tag' htag' hne => ?_, fun hformer hclosed => ?_, fun hformer => ?_, ?_⟩
  · exact (congrArg (Store.read (slotOf k g.tag)) hroster).trans (State.setEntry_entry s k g.tag _)
  · exact (congrArg (Store.read (slotOf j tag')) hroster).trans
      (State.setEntry_entry_ne (s := s) _ (slotOf_ne htag htag' hne))
  · have ho : opened.meters = Store.write (slotOf k g.tag) (zeroMeters s.round true) s.meters :=
      congrArg State.meters ((if_pos hformer).trans (State.openMeters_of_closed (s := greeted) hclosed))
    exact (congrArg (Store.read (slotOf k g.tag)) ho).trans (Store.read_write_self _ _ _)
  · have ho : opened.meters = greeted.meters := congrArg State.meters (if_neg hformer)
    exact congrArg (Store.read (slotOf k g.tag)) ho
  · obtain ⟨x, hx, hspec⟩ := noticesAfter_mem opened.round (some k) (d := home) (fun _ => rfl)
      (opened.port (routeOf opened.routes .homeActive)).notices
    refine ⟨x, ?_, hspec⟩
    have hport : ((opened.raise k home).port (routeOf opened.routes .homeActive)).notices = _ :=
      congrArg PortState.notices (State.raiseAt_port opened (routeOf opened.routes .homeActive) (some k) home)
    exact hroutes ▸ hport.symm ▸ hx

end Sys2Proof.Machine
end

section
/-! PROOFS. Upstream reception: grants whose burst is not received (O31), and guards (O32). -/

namespace Sys2Proof.Machine

variable {s : State} {k : TreeId} {round : Round} {g : Grant} {e : Entry} {tag : Nat}

/-! ## Greeting misses, damage and misses (R60, R82 to R84) -/

section
variable {f : Timed} (he : s.entry k tag = some e) (hf : e.body = .timed f)
include he hf

theorem State.greetingMiss_of_hushed (h : f.hushed = true ∨ e.owed.wake = true) : s.greetingMiss k tag = s := by
  simp only [State.greetingMiss, he, hf, if_pos h]

theorem State.greetingMiss_of_counted (hh : f.hushed = false) (hw : e.owed.wake = false) :
    s.greetingMiss k tag =
      if 3 ≤ f.misses + 1 then s.failEnrolment k tag .noGreeting none
      else s.setEntry k tag { e with body := .timed { f with misses := f.misses + 1 } } := by
  simp only [State.greetingMiss, he, hf, hh, hw, Bool.false_eq_true, or_self, if_false]

theorem State.failEnrolment_of_timed (reason : FailReason) (trip : Option Nat) :
    (f.former = none → s.failEnrolment k tag reason trip =
      (s.vacate k tag).raise k (.enrolFailed k tag e.serial reason none trip false)) ∧
    ∀ d : Nat, f.former = some d → s.failEnrolment k tag reason trip =
      (s.setEntry k tag { e with owed := Owed.none, body := .silent { e := d, hushed := f.hushed } }).raise k
        (.enrolFailed k tag e.serial reason none trip true) := by
  refine ⟨fun hd => ?_, fun d hd => ?_⟩ <;> simp only [State.failEnrolment, he, Entry.failEnrolment, hf, hd]

end

theorem State.damageBurst_of_active {f : Active} (hg : s.grantee k g = some e) (hf : e.body = .active f) :
    s.damageBurst k g = s.setEntry k g.tag { e with body := .active { f with missCount := 0 } } := by
  simp only [State.damageBurst, hg, hf]

/-- The states in which a grant without a received burst changes nothing but what is noted of it. -/
def Entry.unmoved (e : Entry) (g : Grant) : Prop :=
  e.state = .timed ∧ g.kind ≠ .greeting ∨ e.state ∈ [EntryState.silent, .fenced, .heard, .leaving]

theorem State.damageBurst_of_unmoved (hg : s.grantee k g = some e) (h : e.unmoved g) : s.damageBurst k g = s := by
  obtain ⟨serial, occupied, contract, booked, capped, owed, body⟩ := e
  cases body with
  | timed f =>
    have hk : g.kind ≠ .greeting := by simpa [Entry.unmoved, Entry.state] using h
    simp only [State.damageBurst, hg, if_neg hk]
  | active f => simp [Entry.unmoved, Entry.state] at h
  | _ => simp only [State.damageBurst, hg]

theorem State.missGrant_of_unmoved (hg : s.grantee k g = some e) (h : e.unmoved g) : s.missGrant k g = s := by
  obtain ⟨serial, occupied, contract, booked, capped, owed, body⟩ := e
  cases body with
  | timed f =>
    have hk : g.kind ≠ .greeting := by simpa [Entry.unmoved, Entry.state] using h
    simp only [State.missGrant, hg, if_neg hk]
  | active f => simp [Entry.unmoved, Entry.state] at h
  | _ => simp only [State.missGrant, hg]

theorem State.unheard_of_greeting {f : Timed} (hg : s.grantee k g = some e) (hf : e.body = .timed f) (hk : g.kind = .greeting) :
    s.damageBurst k g = s.greetingMiss k g.tag ∧ s.missGrant k g = s.greetingMiss k g.tag := by
  constructor
  · simp only [State.damageBurst, hg, hf, if_pos hk]
  · simp only [State.missGrant, hg, hf, if_pos hk]

section
variable {f : Active} (hg : s.grantee k g = some e) (hf : e.body = .active f)
include hg hf

theorem State.missGrant_of_hushed (h : f.hushed = true ∨ e.owed.wake = true) : s.missGrant k g = s := by
  simp only [State.missGrant, hg, hf, if_pos h]

theorem State.missGrant_of_active (hw : Store.Wf s.roster) (hh : f.hushed = false) (howed : e.owed.wake = false) :
    s.missGrant k g =
      if (s.tree k).settings.silence ≤ min 16 (f.missCount + 1) then
        ((s.setEntry k g.tag { e with body := .silent { e := f.e, hushed := f.hushed } }).raise k
          (.homeSilent k g.tag e.serial)).leaveHunt k g.tag
      else s.setEntry k g.tag { e with body := .active { f with missCount := min 16 (f.missCount + 1) } } := by
  have hsilent : s.modEntry k g.tag (fun e => e.toSilent.getD e) =
      s.setEntry k g.tag { e with body := .silent { e := f.e, hushed := f.hushed } } := by
    rw [State.modEntry_of_entry hw (State.entry_of_grantee hg)]
    simp only [Entry.toSilent, hf, Option.getD_some]
  simp only [State.missGrant, hg, hf, hh, howed, Bool.false_eq_true, or_self, if_false, hsilent]

end

/-! ## The end of a grant, and light that runs on (R76) -/

section
variable (hp : (s.tree k).phase = .running) (hm : (s.tree k).checker.muted = false)
include hp hm

theorem State.burstRunsOn_of_grant {start : Int} (hg : (s.grantsOf k round).find? (fun x => x.accepts start) = some g)
    (hu : undecided (s.markOf k round g.tag) = true) :
    s.burstRunsOn k round start = (s.damageBurst k g).setMark k round g.tag (.heard false g.latestEnd true true) := by
  simp only [State.burstRunsOn, Tree.judges_of hp hm, hg, hu, if_true]
  rfl

section
variable (hg : (s.grantsOf k round).find? (fun x => x.tag = g.tag) = some g) (light : List LightSpan)
include hg

theorem State.grantEnds_of_foreign (h : s.markOf k round g.tag = some .foreign) :
    s.grantEnds k round g.tag light = (s.missGrant k g).setMark k round g.tag .misplaced := by
  simp only [State.grantEnds, Tree.judges_of hp hm, hg, h, if_true]

theorem State.grantEnds_of_unmarked (h : s.markOf k round g.tag = none) :
    s.grantEnds k round g.tag light =
      if (light.any fun l => g.accepts l.start) = true then s.setMark k round g.tag .burning
      else (s.missGrant k g).setMark k round g.tag
        (if light.any (looseLight (s.grantsOf k round) g) then .misplaced else .missed) := by
  simp only [State.grantEnds, Tree.judges_of hp hm, hg, h, if_true]
  split
  · rfl
  · split <;> rfl

theorem State.grantEnds_of_marked (h : s.markOf k round g.tag ≠ none) (hf : s.markOf k round g.tag ≠ some .foreign) :
    s.grantEnds k round g.tag light = s := by
  unfold State.grantEnds
  rw [if_pos (Tree.judges_of hp hm)]
  simp only [hg]
  split
  · exact absurd ‹_› hf
  · exact absurd ‹_› h
  · rfl

end
end

theorem judgeBurst_of_damaged {b : Burst} (h : b.checkOk = false ∨ (b.tag = g.tag ∧ b.type = 1) ∧ b.packets = none) :
    judgeBurst b g = .damaged := by
  by_cases hc : b.checkOk = true
  · obtain ⟨hown, hb⟩ := h.resolve_left (by rw [hc]; decide)
    simp only [judgeBurst, if_pos hc, if_pos hown, hb]
  · exact if_neg hc

theorem judgeBurst_of_foreign {b : Burst} (hc : b.checkOk = true) (h : ¬ (b.tag = g.tag ∧ b.type = 1)) :
    judgeBurst b g = .foreign := by
  simp only [judgeBurst, if_pos hc, if_neg h]

/-- Settles O31: what damage and a miss do by the entry's state, then each end that leads to one of them. -/
theorem grantsUnheard : Obligations.GrantsUnheard := by
  intro s k round g e hcanon hp hm htag he ho mark greeting damaged missed noted latest
  have hg := State.grantee_of_occupant he ho
  have hgreeting : ∀ {f : Timed} {does : State → Prop}, e.body = .timed f → does (s.greetingMiss k g.tag) → greeting f does := by
    intro f does hf h
    refine ⟨fun hh => State.greetingMiss_of_hushed he hf hh ▸ h, fun hh hw => ?_⟩
    obtain ⟨hnew, hkept⟩ := State.failEnrolment_of_timed he hf .noGreeting none
    rw [State.greetingMiss_of_counted he hf hh hw] at h
    refine ⟨fun hmiss => ?_, fun hmiss hformer => ?_, fun d hmiss hformer => ?_⟩
    · rwa [if_neg (by omega)] at h
    · rwa [if_pos (by omega), hnew hformer] at h
    · rwa [if_pos (by omega), hkept d hformer] at h
  have hdamaged : ∀ {does : State → Prop}, does (s.damageBurst k g) → damaged does := fun {does} h =>
    ⟨fun f hf => State.damageBurst_of_active hg hf ▸ h,
      fun f hf hk => hgreeting hf ((State.unheard_of_greeting hg hf hk).1 ▸ h),
      fun hno => State.damageBurst_of_unmoved hg hno ▸ h⟩
  have hmissed : ∀ {does : State → Prop}, does (s.missGrant k g) → missed does := by
    intro does h
    refine ⟨fun f hf => ⟨fun hh => State.missGrant_of_hushed hg hf hh ▸ h, fun hh hw => ?_⟩,
      fun f hf hk => hgreeting hf ((State.unheard_of_greeting hg hf hk).2 ▸ h),
      fun hno => State.missGrant_of_unmoved hg hno ▸ h⟩
    rw [State.missGrant_of_active hg hf hcanon.1 hh hw] at h
    refine ⟨fun hcount => ?_, fun hcount => ?_⟩
    · rwa [if_neg (Nat.not_le.2 hcount)] at h
    · rwa [if_pos hcount] at h
  have hnext : ∀ {t t' : State}, t = t' → (Host.Outcome.next t : Host.Outcome State Fault Refusal) = .next t' := fun h =>
    congrArg _ h
  refine ⟨fun start hfind hu => hdamaged (hnext (State.burstRunsOn_of_grant hp hm hfind hu)), fun b hfind hu => ?_,
    fun light hfind => ?_⟩
  · intro own
    refine ⟨fun hlate => hdamaged (hnext ?_), fun hstop hbad => hdamaged (hnext ?_), fun hstop hc hown => ?_⟩
    · exact (State.burstEnds_late s hfind hlate).trans (State.burstRunsOn_of_grant hp hm hfind hu)
    · exact (State.burstEnds_of_grant hp hm hfind hu hstop).2.1 (judgeBurst_of_damaged hbad)
    · have hforeign := (State.burstEnds_of_grant hp hm hfind hu hstop).2.2 (judgeBurst_of_foreign hc hown)
      exact ⟨fun hb => hmissed (hnext (hforeign.trans (if_pos hb))), fun hb => hnext (hforeign.trans (if_neg hb))⟩
  · intro ends
    refine ⟨fun h => hmissed (hnext (State.grantEnds_of_foreign hp hm hfind light h)), fun h => ⟨fun hl => ?_, fun hl => ?_⟩,
      fun h hf => hnext (State.grantEnds_of_marked hp hm hfind light h hf)⟩
    · exact hnext ((State.grantEnds_of_unmarked hp hm hfind light h).trans (if_pos hl))
    · exact hmissed (hnext ((State.grantEnds_of_unmarked hp hm hfind light h).trans (if_neg (by rw [hl]; decide))))

/-! ## Guards (R87, R88) -/

theorem addOutcome_eq {history : List Bool} (h : history.length ≤ 8) (b : Bool) :
    addOutcome history b = (if history.length = 8 then history.tail else history) ++ [b] := by
  by_cases hl : history.length = 8
  · obtain _ | ⟨x, rest⟩ := history
    · exact absurd hl (by decide)
    · rw [addOutcome, hl, if_pos rfl]
      rfl
  · have hdrop : history.length + 1 - 8 = 0 := by omega
    rw [addOutcome, hdrop, if_neg hl, List.drop_zero]

section
variable {ok ranOn : Bool} {lightEnd : Int} {begins : List Int} {samples : List Sample}

/-- The end of a guard that is measured, of a burst that was judged (R87). -/
theorem State.guardEnds_of_measured (hp : (s.tree k).phase = .running) (hm : (s.tree k).checker.muted = false)
    (hfind : (s.grantsOf k round).find? (fun x => x.tag = g.tag) = some g)
    (hmark : s.markOf k round g.tag = some (.heard ok lightEnd ranOn true)) (hnow : ¬ (round = s.round ∧ 1875 ≤ g.stop))
    (hmeasured : s.guardMeasured k round g = true) :
    s.guardEnds k round g.tag begins samples =
      (s.setMark k round g.tag (.heard ok lightEnd ranOn false)).judgeGuard k round g
        (guardLevel g lightEnd (s.nextBegin k round g begins) samples) := by
  have hnow' : ¬ (round = s.round ∧ roundQuanta ≤ g.stop) := hnow
  simp only [State.guardEnds, Tree.judges_of hp hm, hfind, hmark, if_neg hnow', hmeasured, if_true]

theorem State.guardMeasured_of_inside (h : g.stop < 1875) : s.guardMeasured k round g = true := if_pos h

theorem State.guardMeasured_of_next (hround : s.round = round + 1) {r : PlanRecord} (hr : (s.tree k).record s.round = some r)
    (hw : ∀ w ∈ r.window, w.opening ≠ 0) : s.guardMeasured k round g = true := by
  by_cases h : g.stop < 1875
  · exact State.guardMeasured_of_inside h
  · have hin : ¬ g.stop < roundQuanta := h
    simp only [State.guardMeasured, if_neg hin, hr, decide_eq_true hround, Bool.true_and]
    split
    · rename_i w hwin
      exact decide_eq_true (hw w hwin)
    · rfl

end

/-- What the judgement of a guard leaves, in the part with the grant's outcome noted (R88). -/
theorem State.judgeGuard_eq (hw : Store.Wf s.roster) (he : s.entry k g.tag = some e) (ho : e.occupied = g.occupied) (level : Nat) :
    let overrun : Bool := (s.tree k).light.effectiveLimit < level
    let judged := s.setEntry k g.tag (e.addOutcome overrun)
    s.judgeGuard k round g level = if overrun then judged.judgeOverrun k g.tag (g.guardRound round) level else judged := by
  simp only [State.judgeGuard, State.grantee_of_occupant he ho, State.modEntry_of_entry hw he]

theorem State.judgeOverrun_of_active {f : Active} (he : s.entry k tag = some e) (hf : e.body = .active f) (n : Round)
    (level : Nat) :
    s.judgeOverrun k tag n level =
      if (s.tree k).light.mOver ≤ f.history.count true then
        ((s.modEntry k tag fun e => (e.superviseFence false).getD e).raise k
          (.overrunFence k tag e.serial (f.history.count true) level n)).leaveHunt k tag
      else s := by
  simp only [State.judgeOverrun, he, hf]
  rfl

theorem State.judgeOverrun_of_other (he : s.entry k tag = some e) (hs : e.state ≠ .active) (n : Round) (level : Nat) :
    s.judgeOverrun k tag n level = s := by
  obtain ⟨serial, occupied, contract, booked, capped, owed, body⟩ := e
  cases body with
  | active f => exact absurd rfl hs
  | _ => simp only [State.judgeOverrun, he]

section
variable {mark : Option GrantMark} (hround : round ≠ s.round)
  (hcarried : (s.tree k).checker.carried = some { round := round, grant := g, mark := mark })
include hround hcarried

theorem State.grantsOf_carried : s.grantsOf k round = [g] := by
  simp only [State.grantsOf, if_neg hround, hcarried, if_true]

theorem State.markOf_carried : s.markOf k round g.tag = mark := by
  simp only [State.markOf, if_neg hround, hcarried, and_self, if_true]

theorem State.setMark_carried (m : GrantMark) :
    s.setMark k round g.tag m = s.setTree k { s.tree k with checker := { (s.tree k).checker with
      carried := some { round := round, grant := g, mark := some m } } } := by
  simp only [State.setMark, State.modChecker, State.modTree, if_neg hround, hcarried, Option.map_some, and_self, if_true]

end

/-- Settles O32: the outcome is noted in the mark of the grant, then the history takes it by the entry's state. -/
theorem guardJudged : Obligations.GuardJudged := by
  intro s judged k round g begins samples e ok ranOn lightEnd hcanon hp hm htag heard hcase he ho level limit overrun longer does
  have hends : s.guardEnds k round g.tag begins samples = judged.judgeGuard k round g level := by
    obtain ⟨rfl, hin, ⟨r, hr, hfind⟩, hmark, hj⟩ | ⟨hround, hplace, hcarried, hj⟩ := hcase
    · have hset : s.setMark k s.round g.tag (heard false) = judged := by
        rw [hj]
        simp only [State.setMark, State.modChecker, State.modTree, if_true]
      rw [← hset]
      exact State.guardEnds_of_measured hp hm (by rwa [State.grantsOf_current hr]) ((State.markOf_current _).trans hmark)
        (fun h => absurd h.2 (Nat.not_le.2 hin)) (State.guardMeasured_of_inside hin)
    · rw [hj, ← State.setMark_carried hround hcarried]
      refine State.guardEnds_of_measured hp hm ?_ (State.markOf_carried hround hcarried) (fun h => hround h.1)
        (hplace.elim State.guardMeasured_of_inside fun ⟨hnext, r, hr, hw⟩ => State.guardMeasured_of_next hnext hr hw)
      rw [State.grantsOf_carried hround hcarried]
      exact List.find?_cons_of_pos (decide_eq_true rfl)
  have hjudged : ∃ c : Checker, judged = s.setTree k { s.tree k with checker := c } :=
    hcase.elim (fun h => ⟨_, h.2.2.2.2⟩) fun h => ⟨_, h.2.2.2⟩
  obtain ⟨checker, hchecker⟩ := hjudged
  have hroster : judged.roster = s.roster := by rw [hchecker]; rfl
  have hlight : (judged.tree k).light = (s.tree k).light := by rw [hchecker, State.setTree_tree]
  have hcanon' : Store.Wf judged.roster := hroster ▸ hcanon.1
  have he' : judged.entry k g.tag = some e := (State.entry_of_roster hroster k g.tag).trans he
  have hjudge : judged.judgeGuard k round g level =
      if overrun then (judged.setEntry k g.tag (e.addOutcome overrun)).judgeOverrun k g.tag (g.guardRound round) level
      else judged.setEntry k g.tag (e.addOutcome overrun) := by
    have h := State.judgeGuard_eq (round := round) hcanon' he' ho level
    rw [hlight] at h
    exact h
  have hdoes : ∀ {t : State}, judged.judgeGuard k round g level = t → does t := fun h =>
    congrArg Host.Outcome.next (hends.trans h)
  refine ⟨fun f hf hd hl => ?_, fun f hf hl => ?_, fun hs => ?_⟩
  · intro history
    have hadd : e.addOutcome overrun = { e with body := .active { f with history := history } } := by
      simp only [Entry.addOutcome, hf, addOutcome_eq hl]
      rfl
    have hentry := State.setEntry_entry judged k g.tag { e with body := .active { f with history := history } }
    have hover : (judged.setEntry k g.tag { e with body := .active { f with history := history } }).judgeOverrun k g.tag
        (g.guardRound round) level = _ := State.judgeOverrun_of_active hentry rfl (g.guardRound round) level
    have hmOver : ((judged.setEntry k g.tag { e with body := .active { f with history := history } }).tree k).light.mOver =
        (s.tree k).light.mOver := congrArg Light.mOver hlight
    rw [hadd] at hjudge
    refine ⟨fun h => hdoes (hjudge.trans ?_), fun ho hcount => hdoes (hjudge.trans ?_)⟩
    · obtain ho | hcount := h
      · exact if_neg (by rw [ho]; decide)
      · split
        · exact hover.trans (if_neg (hmOver.symm ▸ Nat.not_le.2 hcount))
        · rfl
    · refine (if_pos ho).trans (hover.trans ((if_pos (hmOver.symm ▸ hcount)).trans ?_))
      rw [(SlotHolds.setEntry hcanon').modEntry]
      have hfence : ({ e with body := .active { f with history := history } } : Entry).superviseFence false = some { e with
          owed := { e.owed with fence := true, release := false }
          body := .fenced { e := f.e, need := f.need, credit := f.credit, lastGranted := f.lastGranted
                            history := history, hushed := f.hushed, trial := false } } := by
        have howed : e.owed.add .fence = { e.owed with fence := true, release := false } := if_neg (by rw [hd]; decide)
        simp only [Entry.superviseFence, Entry.owe, howed]
        rfl
      rw [hfence, Option.getD_some]
      rfl
  · have hadd : e.addOutcome overrun = { e with body := .fenced { f with history := longer f.history } } := by
      simp only [Entry.addOutcome, hf, addOutcome_eq hl]
      rfl
    rw [hadd] at hjudge
    refine hdoes (hjudge.trans ((congrArg (fun u => if overrun then u else _) ?_).trans (ite_self _)))
    exact State.judgeOverrun_of_other (State.setEntry_entry judged k g.tag _) (by simp [Entry.state]) _ _
  · have hadd : e.addOutcome overrun = e := by
      obtain ⟨serial, occupied, contract, booked, capped, owed, body⟩ := e
      cases body <;> simp [Entry.state] at hs <;> rfl
    have hactive : e.state ≠ .active := fun h => by simp [h] at hs
    rw [hadd, State.setEntry_of_entry hcanon' he'] at hjudge
    refine hdoes (hjudge.trans ((congrArg (fun u => if overrun then u else _) ?_).trans (ite_self _)))
    exact State.judgeOverrun_of_other he' hactive _ _

end Sys2Proof.Machine
end

section
/-! PROOFS. The framer's steps: what a count fires, what an order that counts as sent changes, what packing leaves, and how one
tree's frame leaves the other trees. -/

namespace Sys2Proof.Machine

variable {s s' s'' : State} {k j : TreeId} {tag n : Nat}

/-! ## Watches that fire (R158)

A watch that fires may set the capped mark of an entry and the capped-during mark of its meters, and raises a notice. Entries and
meters are compared without these marks. -/

def Entry.uncapped (e : Entry) : Entry := { e with capped := false }

def Meters.unmarked (m : Meters) : Meters := { m with cappedDuring := false }

/-- What watches that fire change: the marks of a throttled slot, the watches, and notices. -/
structure Fired (s s' : State) : Prop where
  frame : s' = { s with roster := s'.roster, meters := s'.meters, watches := s'.watches, ports := s'.ports }
  roster : (s'.roster.map fun x => (x.1, x.2.uncapped)) = s.roster.map fun x => (x.1, x.2.uncapped)
  meters : (s'.meters.map fun x => (x.1, x.2.unmarked)) = s.meters.map fun x => (x.1, x.2.unmarked)
  ports : ∀ p, s'.port p = { s.port p with notices := (s'.port p).notices, line := (s'.port p).line }

theorem Fired.refl (s : State) : Fired s s := ⟨rfl, rfl, rfl, fun _ => rfl⟩

theorem Fired.trans (h : Fired s s') (h' : Fired s' s'') : Fired s s'' where
  frame := h'.frame.trans (congrArg (fun u : State =>
    { u with roster := s''.roster, meters := s''.meters, watches := s''.watches, ports := s''.ports }) h.frame)
  roster := h'.roster.trans h.roster
  meters := h'.meters.trans h.meters
  ports p := (h'.ports p).trans (congrArg (fun x : PortState =>
    { x with notices := (s''.port p).notices, line := (s''.port p).line }) (h.ports p))

theorem raiseAt_ports (s : State) (p' : Port) (t : Option TreeId) (d : Detail) (p : Port) :
    (s.raiseAt p' t d).port p =
      { s.port p with notices := ((s.raiseAt p' t d).port p).notices, line := ((s.raiseAt p' t d).port p).line } := by
  by_cases hp : p = p'
  · subst hp
    rw [State.raiseAt_port]
  · rw [State.raiseAt_port_ne (h := hp)]

theorem Fired.fireWatch (n : Nat) (w : Watch) : Fired s (s.fireWatch n w) := by
  have h := State.fireWatch_eq (s := s) n w
  refine ⟨by rw [h]; rfl, ?_, ?_, fun p => ?_⟩
  · rw [h]
    refine List.map_map.trans (List.map_congr_left fun x _ => ?_)
    simp only [Function.comp]
    split <;> rfl
  · rw [h]
    refine List.map_map.trans (List.map_congr_left fun x _ => ?_)
    simp only [Function.comp]
    split <;> rfl
  · rw [h]
    exact raiseAt_ports s _ _ _ p

theorem Fired.testWatch (n : Nat) : Fired s (s.testWatch n) := by
  unfold State.testWatch
  split
  · exact .refl s
  · split
    · exact .fireWatch _ _
    · exact .refl s

theorem Fired.testWatches (k : TreeId) (tag : Nat) : Fired s (s.testWatches k tag) := by
  unfold State.testWatches
  generalize s.watchesOn k tag = l
  induction l generalizing s with
  | nil => exact .refl s
  | cons n l ih => exact (Fired.testWatch n).trans ih

section
variable (h : Fired s s')
include h

theorem Fired.meterOf (n : Nat) : (Store.read n s'.meters).map Meters.unmarked = (Store.read n s.meters).map Meters.unmarked := by
  have hread := congrArg (Store.read n) h.meters
  rwa [Store.read_map fun _ => Meters.unmarked, Store.read_map fun _ => Meters.unmarked] at hread

end

/-- The state of a slot does not show the capped mark. -/
theorem State.slotState_of_uncapped (h : (s'.entry k tag).map Entry.uncapped = (s.entry k tag).map Entry.uncapped) :
    s'.slotState k tag = s.slotState k tag := by
  have hstate : ∀ u : State, u.slotState k tag = (((u.entry k tag).map Entry.uncapped).map Entry.state).getD .vacant := fun u => by
    unfold State.slotState
    cases u.entry k tag <;> rfl
  rw [hstate, hstate, h]

/-! ## Meters that count down bytes and withheld bytes -/

/-- What the counts of a frame keep of the meters of a slot (R151). -/
structure MeterKept (a b : Option Meters) : Prop where
  closed : a = none → b = none
  opened : ∀ m, a = some m → ∃ m', b = some m' ∧
    m' = { m with down := m'.down, withheld := m'.withheld, saturated := m'.saturated, cappedDuring := m'.cappedDuring } ∧
    (m.saturated = true → m'.saturated = true)

theorem MeterKept.refl (a : Option Meters) : MeterKept a a := ⟨id, fun m h => ⟨m, h, rfl, id⟩⟩

theorem MeterKept.trans {a b c : Option Meters} (h : MeterKept a b) (h' : MeterKept b c) : MeterKept a c := by
  refine ⟨fun ha => h'.closed (h.closed ha), fun m ha => ?_⟩
  obtain ⟨m', hb, hm', hsat⟩ := h.opened m ha
  obtain ⟨m'', hc, hm'', hsat'⟩ := h'.opened m' hb
  refine ⟨m'', hc, hm''.trans (congrArg (fun x : Meters => { x with
    down := m''.down, withheld := m''.withheld, saturated := m''.saturated, cappedDuring := m''.cappedDuring }) hm'),
    fun hs => hsat' (hsat hs)⟩

theorem MeterKept.modify {f : Meters → Meters} (st : Store Meters) (i n : Nat)
    (hf : ∀ m, f m = { m with
      down := (f m).down, withheld := (f m).withheld, saturated := (f m).saturated, cappedDuring := (f m).cappedDuring } ∧
      (m.saturated = true → (f m).saturated = true)) :
    MeterKept (Store.read n st) (Store.read n (Store.modify i f st)) := by
  rw [Store.read_modify]
  by_cases h : n = i
  · rw [if_pos h]
    refine ⟨fun hn => by rw [hn]; rfl, fun m hm => ⟨f m, by rw [hm]; rfl, hf m⟩⟩
  · rw [if_neg h]
    exact .refl _

theorem Fired.meterKept (h : Fired s s') (n : Nat) : MeterKept (Store.read n s.meters) (Store.read n s'.meters) := by
  have hread := h.meterOf n
  cases hm : Store.read n s.meters <;> cases hm' : Store.read n s'.meters <;> rw [hm, hm'] at hread
  · exact .refl _
  · cases hread
  · cases hread
  · rename_i m m'
    refine ⟨nofun, fun x hx => ⟨m', rfl, ?_, fun hs => ?_⟩⟩
    · obtain rfl := Option.some.inj hx
      exact congrArg (fun y : Meters => { y with
        down := m'.down, withheld := m'.withheld, saturated := m'.saturated, cappedDuring := m'.cappedDuring })
        (Option.some.inj hread)
    · obtain rfl := Option.some.inj hx
      exact (congrArg Meters.saturated (Option.some.inj hread)).trans hs

theorem Meters.addWithheld_eq (m : Meters) (band : BandId) (n : Nat) :
    m.addWithheld band n = { m with withheld := m.withheld.set band (min 281474976710655 (m.withheld.get band + n))
                                    saturated := m.saturated || decide (281474976710655 < m.withheld.get band + n) } := by
  simp only [Meters.addWithheld, satAdd_eq]
  rfl

/-! ## What counts change of the part -/

/-- What the counts of a frame's packets change: capped marks, watches, notices, and down and withheld bytes (R151, R158). -/
structure Counted (s s' : State) : Prop where
  frame : s' = { s with roster := s'.roster, meters := s'.meters, watches := s'.watches, ports := s'.ports }
  roster : (s'.roster.map fun x => (x.1, x.2.uncapped)) = s.roster.map fun x => (x.1, x.2.uncapped)
  meters : ∀ n, MeterKept (Store.read n s.meters) (Store.read n s'.meters)
  ports : ∀ p, s'.port p = { s.port p with notices := (s'.port p).notices, line := (s'.port p).line }

theorem Fired.counted (h : Fired s s') : Counted s s' := ⟨h.frame, h.roster, h.meterKept, h.ports⟩

theorem Counted.refl (s : State) : Counted s s := (Fired.refl s).counted

theorem Counted.trans (h : Counted s s') (h' : Counted s' s'') : Counted s s'' where
  frame := h'.frame.trans (congrArg (fun u : State =>
    { u with roster := s''.roster, meters := s''.meters, watches := s''.watches, ports := s''.ports }) h.frame)
  roster := h'.roster.trans h.roster
  meters n := (h.meters n).trans (h'.meters n)
  ports p := (h'.ports p).trans (congrArg (fun x : PortState =>
    { x with notices := (s''.port p).notices, line := (s''.port p).line }) (h.ports p))

theorem Counted.modMeters {f : Meters → Meters} (k : TreeId) (tag : Nat)
    (hf : ∀ m, f m = { m with
      down := (f m).down, withheld := (f m).withheld, saturated := (f m).saturated, cappedDuring := (f m).cappedDuring } ∧
      (m.saturated = true → (f m).saturated = true)) : Counted s (s.modMeters k tag f) where
  frame := rfl
  roster := rfl
  meters n := .modify s.meters (slotOf k tag) n hf
  ports _ := rfl

theorem Counted.countWithheld (k : TreeId) (tag n : Nat) : Counted s (s.countWithheld k tag n) :=
  .modMeters k tag fun m => by
    rw [Meters.addWithheld_eq]
    exact ⟨rfl, fun h => by rw [h]; rfl⟩

theorem Counted.countDown (k : TreeId) (tag n : Nat) : Counted s (s.countDown k tag n) :=
  .trans (.modMeters k tag fun m => by
    rw [Meters.addDown_eq]
    exact ⟨rfl, fun h => by rw [h]; rfl⟩) (Fired.testWatches k tag).counted

section
variable (h : Counted s s')
include h

theorem Counted.tree (k : TreeId) : s'.tree k = s.tree k := State.tree_of_trees (congrArg State.trees h.frame) k

theorem Counted.entry (k : TreeId) (tag : Nat) : (s'.entry k tag).map Entry.uncapped = (s.entry k tag).map Entry.uncapped := by
  have hread := congrArg (Store.read (slotOf k tag)) h.roster
  rwa [Store.read_map fun _ => Entry.uncapped, Store.read_map fun _ => Entry.uncapped] at hread

theorem Counted.slotState (k : TreeId) (tag : Nat) : s'.slotState k tag = s.slotState k tag :=
  State.slotState_of_uncapped (h.entry k tag)

/-- The entries of a tree are those before, capped marks aside. -/
theorem Counted.treeEntries (k : TreeId) :
    ((s'.treeEntries k).map fun x => (x.1, x.2.uncapped)) = (s.treeEntries k).map fun x => (x.1, x.2.uncapped) := by
  have hentries : ∀ u : State, ((u.treeEntries k).map fun x => (x.1, x.2.uncapped)) =
      (u.roster.map fun x => (x.1, x.2.uncapped)).filterMap fun x =>
        if slotTree x.1 = k.val then some (slotTag x.1, x.2) else none := fun u => by
    rw [State.treeEntries, List.map_filterMap, List.filterMap_map]
    refine List.filterMap_congr fun x _ => ?_
    simp only [Function.comp]
    split <;> rfl
  rw [hentries, hentries, h.roster]

end

/-! ## Packing (R72) -/

/-- The bytes of a list of packets. -/
abbrev packetBytes (ps : List DownPacket) : Nat := (ps.map fun p => p.payload.length).sum

/-- The meters of a slot after a frame's packets: what was sent and what was withheld (R151). -/
def Meters.packed (m : Meters) (band : BandId) (sent withheld : Nat) : Meters :=
  { m with
    down := m.down.set band (min 281474976710655 (m.down.get band + sent))
    withheld := m.withheld.set band (min 281474976710655 (m.withheld.get band + withheld))
    saturated := m.saturated || decide (281474976710655 < m.down.get band + sent) ||
      decide (281474976710655 < m.withheld.get band + withheld) }

/-- The byte counts of a band are in range. -/
def Meters.BandWithin (m : Meters) (band : BandId) : Prop :=
  m.down.get band ≤ 281474976710655 ∧ m.withheld.get band ≤ 281474976710655

theorem Meters.packed_zero {m : Meters} {band : BandId} (h : m.BandWithin band) : m.packed band 0 0 = m := by
  obtain ⟨hd, hw⟩ := h
  simp only [Meters.packed, Nat.add_zero, Nat.min_eq_right hd, Nat.min_eq_right hw, Quad.set_get,
    decide_eq_false (Nat.not_lt.2 hd), decide_eq_false (Nat.not_lt.2 hw), Bool.or_false]

theorem saturates_add {M n a b : Nat} : (decide (M < n + a) || decide (M < min M (n + a) + b)) = decide (M < n + (a + b)) := by
  rw [Bool.eq_iff_iff]
  simp only [Bool.or_eq_true, decide_eq_true_eq]
  omega

theorem Meters.packed_addDown (m : Meters) (band : BandId) (n a b : Nat) :
    (m.addDown band n).packed band a b = m.packed band (n + a) b := by
  have hmin : min 281474976710655 (min 281474976710655 (m.down.get band + n) + a) =
      min 281474976710655 (m.down.get band + (n + a)) := by omega
  simp only [Meters.packed, Meters.addDown_eq, Quad.get_set_self, Quad.set_set, hmin, Bool.or_assoc, ← saturates_add (a := n)]

theorem Meters.packed_addWithheld (m : Meters) (band : BandId) (n a b : Nat) :
    (m.addWithheld band n).packed band a b = m.packed band a (n + b) := by
  have hmin : min 281474976710655 (min 281474976710655 (m.withheld.get band + n) + b) =
      min 281474976710655 (m.withheld.get band + (n + b)) := by omega
  simp only [Meters.packed, Meters.addWithheld_eq, Quad.get_set_self, Quad.set_set, hmin, ← saturates_add (a := n)]
  simp only [Bool.or_assoc, Bool.or_left_comm]

theorem Meters.addDown_within {m : Meters} {band : BandId} (h : m.BandWithin band) (n : Nat) :
    (m.addDown band n).BandWithin band := by
  rw [Meters.addDown_eq]
  exact ⟨by simp only [Quad.get_set_self]; omega, h.2⟩

theorem Meters.addWithheld_within {m : Meters} {band : BandId} (h : m.BandWithin band) (n : Nat) :
    (m.addWithheld band n).BandWithin band := by
  rw [Meters.addWithheld_eq]
  exact ⟨h.1, by simp only [Quad.get_set_self]; omega⟩

/-- The bytes of the packets for a slot in one state, among those taken from a buffer. -/
def State.takenBytes (s : State) (k : TreeId) (taken : List DownPacket) (state : EntryState) (n : Nat) : Nat :=
  packetBytes (taken.filter fun p => slotOf k p.tag = n ∧ s.slotState k p.tag = state)

/-- What packing takes from a buffer, packet after packet, and what it counts. -/
structure PacksOf (k : TreeId) (room : Nat) (sent left : List DownPacket) (s : State) (r : Packed) (taken : List DownPacket) :
    Prop where
  counted : Counted s r.state
  split : left = taken ++ r.left
  sent : r.sent = sent ++ taken.filter fun p => s.slotState k p.tag = .active
  fits : packetBytes (taken.filter fun p => s.slotState k p.tag = .active) ≤ room
  stopped : ∀ (p : DownPacket) (rest : List DownPacket), r.left = p :: rest → s.slotState k p.tag = .active ∧
    room < packetBytes (taken.filter fun p => s.slotState k p.tag = .active) + p.payload.length
  meters : ∀ n, (∀ m, Store.read n s.meters = some m → m.BandWithin s.band) →
    (Store.read n r.state.meters).map Meters.unmarked = (Store.read n s.meters).map fun m =>
      (m.packed s.band (s.takenBytes k taken .active n) (s.takenBytes k taken .fenced n)).unmarked

theorem State.takenBytes_cons (p : DownPacket) (taken : List DownPacket) (state : EntryState) (n : Nat) :
    s.takenBytes k (p :: taken) state n =
      (if slotOf k p.tag = n ∧ s.slotState k p.tag = state then p.payload.length else 0) + s.takenBytes k taken state n := by
  unfold State.takenBytes
  by_cases h : slotOf k p.tag = n ∧ s.slotState k p.tag = state
  · rw [if_pos h, List.filter_cons, if_pos (decide_eq_true h)]
    rfl
  · rw [if_neg h, List.filter_cons, if_neg (by rw [decide_eq_false h]; decide), Nat.zero_add]

/-- What the count of one packet leaves of each slot's meters: the bytes that are sent and those that are withheld. -/
structure CountsPacket (s s' : State) (sent withheld : Nat → Nat) : Prop where
  counted : Counted s s'
  meters : ∀ n, (∀ m, Store.read n s.meters = some m → m.BandWithin s.band) →
    (∀ m, Store.read n s'.meters = some m → m.BandWithin s.band) ∧
    ∀ a b, ((Store.read n s'.meters).map fun m => (m.packed s.band a b).unmarked) =
      (Store.read n s.meters).map fun m => (m.packed s.band (sent n + a) (withheld n + b)).unmarked

theorem CountsPacket.of_modify {f : Meters → Meters} {a' b' : Nat} {sent withheld : Nat → Nat} {i : Nat} (hc : Counted s s')
    (hmeters : ∀ n, (Store.read n s'.meters).map Meters.unmarked = (Store.read n (Store.modify i f s.meters)).map Meters.unmarked)
    (hwithin : ∀ m, m.BandWithin s.band → (f m).BandWithin s.band)
    (hpacked : ∀ m a b, (f m).packed s.band a b = m.packed s.band (a' + a) (b' + b))
    (hsent : ∀ n, sent n = if i = n then a' else 0) (hwithheld : ∀ n, withheld n = if i = n then b' else 0) :
    CountsPacket s s' sent withheld := by
  refine ⟨hc, fun n hn => ?_⟩
  have hread := hmeters n
  rw [Store.read_modify] at hread
  have hpack : ∀ (o : Option Meters) a b, (o.map fun m => (m.packed s.band a b).unmarked) =
      (o.map Meters.unmarked).map fun m => m.packed s.band a b := fun o a b => by
    rw [Option.map_map]
    rfl
  by_cases h : i = n
  · subst h
    rw [if_pos rfl] at hread
    rw [hsent, hwithheld, if_pos rfl, if_pos rfl]
    refine ⟨fun m hm => ?_, fun a b => ?_⟩
    · rw [hm] at hread
      cases hs : Store.read i s.meters with
      | none => rw [hs] at hread; cases hread
      | some x =>
        rw [hs] at hread
        have heq : m.unmarked = (f x).unmarked := Option.some.inj hread
        have hw := hwithin x (hn x hs)
        exact ⟨(congrArg (fun y : Meters => y.down.get s.band) heq).trans_le hw.1,
          (congrArg (fun y : Meters => y.withheld.get s.band) heq).trans_le hw.2⟩
    · rw [hpack, hread, Option.map_map, Option.map_map]
      exact congrArg (fun g => Option.map g _) (funext fun m => congrArg Meters.unmarked (hpacked m a b))
  · rw [if_neg (Ne.symm h)] at hread
    rw [hsent, hwithheld, if_neg h, if_neg h]
    refine ⟨fun m hm => ?_, fun a b => ?_⟩
    · rw [hm] at hread
      cases hs : Store.read n s.meters with
      | none => rw [hs] at hread; cases hread
      | some x =>
        rw [hs] at hread
        have heq : m.unmarked = x.unmarked := Option.some.inj hread
        have hw := hn x hs
        exact ⟨(congrArg (fun y : Meters => y.down.get s.band) heq).trans_le hw.1,
          (congrArg (fun y : Meters => y.withheld.get s.band) heq).trans_le hw.2⟩
    · rw [Nat.zero_add, Nat.zero_add, hpack, hread, ← hpack]

/-- A packet of an ACTIVE slot is counted down, one of a FENCED slot withheld, and one of any other slot not at all. -/
theorem CountsPacket.of_packet (s : State) (k : TreeId) (p : DownPacket) :
    (s.slotState k p.tag = .active → CountsPacket s (s.countDown k p.tag p.payload.length)
      (fun n => if slotOf k p.tag = n ∧ s.slotState k p.tag = .active then p.payload.length else 0)
      fun n => if slotOf k p.tag = n ∧ s.slotState k p.tag = .fenced then p.payload.length else 0) ∧
    (s.slotState k p.tag = .fenced → CountsPacket s (s.countWithheld k p.tag p.payload.length)
      (fun n => if slotOf k p.tag = n ∧ s.slotState k p.tag = .active then p.payload.length else 0)
      fun n => if slotOf k p.tag = n ∧ s.slotState k p.tag = .fenced then p.payload.length else 0) ∧
    (s.slotState k p.tag ≠ .active → s.slotState k p.tag ≠ .fenced → CountsPacket s s
      (fun n => if slotOf k p.tag = n ∧ s.slotState k p.tag = .active then p.payload.length else 0)
      fun n => if slotOf k p.tag = n ∧ s.slotState k p.tag = .fenced then p.payload.length else 0) := by
  refine ⟨fun h => ?_, fun h => ?_, fun ha hf => ?_⟩
  · refine .of_modify (f := fun m => m.addDown s.band p.payload.length) (i := slotOf k p.tag) (.countDown k p.tag _)
      (fun n => (Fired.testWatches (s := s.modMeters k p.tag fun m => m.addDown s.band p.payload.length) k p.tag).meterOf n)
      (fun m hm => Meters.addDown_within hm _) (a' := p.payload.length) (b' := 0) (fun m a b => ?_) (fun n => by simp [h]) fun n => by simp [h]
    rw [Nat.zero_add]
    exact Meters.packed_addDown m s.band _ a b
  · refine .of_modify (.countWithheld k p.tag _) (fun n => rfl) (fun m hm => Meters.addWithheld_within hm _)
      (a' := 0) (b' := p.payload.length) (fun m a b => ?_) (fun n => by simp [h]) fun n => by simp [h]
    rw [Nat.zero_add]
    exact Meters.packed_addWithheld m s.band _ a b
  · refine ⟨.refl s, fun n hn => ⟨hn, fun a b => ?_⟩⟩
    simp only [ha, hf, and_false, if_false, Nat.zero_add]

/-- One packet more, in front of what is packed after it. -/
theorem PacksOf.cons {room room' : Nat} {sent sent' rest taken : List DownPacket} {r : Packed} {p : DownPacket}
    (hc : CountsPacket s s' (fun n => if slotOf k p.tag = n ∧ s.slotState k p.tag = .active then p.payload.length else 0)
      fun n => if slotOf k p.tag = n ∧ s.slotState k p.tag = .fenced then p.payload.length else 0)
    (h : PacksOf k room' sent' rest s' r taken)
    (hsent : sent' = sent ++ [p].filter fun p => s.slotState k p.tag = .active)
    (hroom : room = room' + packetBytes ([p].filter fun p => s.slotState k p.tag = .active)) :
    PacksOf k room sent (p :: rest) s r (p :: taken) := by
  have hstate : ∀ tag, s'.slotState k tag = s.slotState k tag := hc.counted.slotState k
  have hband : s'.band = s.band := (congrArg State.band hc.counted.frame :)
  have hfilter : (p :: taken).filter (fun p => s.slotState k p.tag = .active) =
      ([p].filter fun p => s.slotState k p.tag = .active) ++ taken.filter fun p => s.slotState k p.tag = .active :=
    (List.filter_append (l₁ := [p]) taken)
  have hbytes : packetBytes ((p :: taken).filter fun p => s.slotState k p.tag = .active) =
      packetBytes ([p].filter fun p => s.slotState k p.tag = .active) +
        packetBytes (taken.filter fun p => s.slotState k p.tag = .active) := by
    rw [hfilter, packetBytes, List.map_append, List.sum_append]
  obtain ⟨hcounted, hsplit, hsent', hfits, hstopped, hmeters⟩ := h
  simp only [hstate] at hsent' hfits hstopped
  refine ⟨hc.counted.trans hcounted, congrArg _ hsplit, ?_, ?_, fun p' rest' hl => ⟨(hstopped p' rest' hl).1, ?_⟩, fun n hn => ?_⟩
  · rw [hsent', hsent, hfilter, List.append_assoc]
  · omega
  · have := (hstopped p' rest' hl).2
    omega
  · obtain ⟨hn', hpacked⟩ := hc.meters n hn
    have htaken : ∀ state, s'.takenBytes k taken state n = s.takenBytes k taken state n := fun state => by
      simp only [State.takenBytes, hstate]
    rw [hmeters n (hband.symm ▸ hn'), hband, htaken, htaken, hpacked, State.takenBytes_cons, State.takenBytes_cons]

theorem packPayload_spec (k : TreeId) (room : Nat) (sent left : List DownPacket) (s : State) :
    ∃ taken, PacksOf k room sent left s (packPayload k room sent left s) taken := by
  have hstop : ∀ (room : Nat) (sent left : List DownPacket) (s : State),
      (∀ (p : DownPacket) (rest : List DownPacket), left = p :: rest → s.slotState k p.tag = .active ∧ room < p.payload.length) →
      PacksOf k room sent left s { state := s, sent := sent, left := left } [] := fun room sent left s h =>
    { counted := .refl s, split := rfl, sent := (List.append_nil _).symm, fits := Nat.zero_le _
      stopped := fun p rest hl => ⟨(h p rest hl).1, by simpa [packetBytes] using (h p rest hl).2⟩
      meters := fun n hn => by
        cases hm : Store.read n s.meters with
        | none => rfl
        | some m => exact congrArg (fun x : Meters => some x.unmarked) (Meters.packed_zero (hn m hm)).symm }
  have hskip : ∀ (s : State) (p : DownPacket), s.slotState k p.tag ≠ .active →
      ([p].filter fun p => s.slotState k p.tag = .active) = [] := fun s p h =>
    List.filter_cons_of_neg (by rw [decide_eq_false h]; decide)
  induction left generalizing room sent s with
  | nil => exact ⟨[], hstop room sent [] s nofun⟩
  | cons p rest ih =>
    unfold packPayload
    split
    · rename_i hactive
      split
      · rename_i hroom
        obtain ⟨taken, h⟩ := ih (room - p.payload.length) (sent ++ [p]) (s.countDown k p.tag p.payload.length)
        have hone : ([p].filter fun p => s.slotState k p.tag = .active) = [p] := List.filter_cons_of_pos (decide_eq_true hactive)
        refine ⟨p :: taken, h.cons ((CountsPacket.of_packet s k p).1 hactive) (by rw [hone]) ?_⟩
        rw [hone]
        simp only [packetBytes, List.map_cons, List.map_nil, List.sum_cons, List.sum_nil]
        omega
      · rename_i hroom
        exact ⟨[], hstop _ _ _ _ fun p' rest' hl => by
          obtain ⟨rfl, -⟩ := List.cons_eq_cons.1 hl
          exact ⟨hactive, Nat.not_le.1 hroom⟩⟩
    · rename_i hfenced
      obtain ⟨taken, h⟩ := ih room sent (s.countWithheld k p.tag p.payload.length)
      have hnone := hskip s p (by rw [hfenced]; decide)
      exact ⟨p :: taken, h.cons ((CountsPacket.of_packet s k p).2.1 hfenced) (by rw [hnone, List.append_nil]) (by rw [hnone]; rfl)⟩
    · rename_i hactive hfenced
      obtain ⟨taken, h⟩ := ih room sent s
      have hnone := hskip s p hactive
      exact ⟨p :: taken, h.cons ((CountsPacket.of_packet s k p).2.2 hactive hfenced) (by rw [hnone, List.append_nil])
        (by rw [hnone]; rfl)⟩

end Sys2Proof.Machine
end

section
/-! PROOFS. Orders that count as sent, seen from one slot; and the frame of one tree, seen from every tree. -/

namespace Sys2Proof.Machine

variable {s s' s'' : State} {k j : TreeId} {tag n : Nat}

/-! ## Orders, seen from one slot (R68) -/

/-- The tags an order addresses. -/
def OrderPlace.addressees : OrderPlace → List Nat
  | .fence _ tag => [tag]
  | .drop _ tag => [tag]
  | .hush tags => tags
  | .wake tags => tags
  | .release tag => [tag]
  | .assign _ tag _ => [tag]
  | .probe _ tag => [tag]
  | .adjust tag _ => [tag]

/-- What an order that counts as sent makes of an entry it addresses; a DROP makes the slot of a LEAVING one VACANT. -/
def OrderPlace.takenBy (e : Entry) : OrderPlace → Option Entry
  | .fence _ _ => some (e.sent .fence)
  | .drop _ _ => if e.state = .leaving then none else some (e.sent .drop)
  | .hush _ => some (e.sent .hush)
  | .wake _ => some ((e.sent .wake).setHushed false)
  | .release _ => some (e.sent .release)
  | .assign _ _ _ => some (e.sent .assign)
  | .probe _ _ => some (e.sent .probe)
  | .adjust _ _ => some (e.sent .adjust)

/-- What an order that counts as sent makes of the slot with a tag. -/
def OrderPlace.sentTo (o : OrderPlace) (tag : Nat) (x : Option Entry) : Option Entry :=
  if tag ∈ o.addressees then x.bind o.takenBy else x

theorem State.modEntry_entry_iff (h : tagOk tag = true) {a : Nat} (ha : tagOk a = true) (f : Entry → Entry) :
    (s.modEntry k a f).entry j tag = if j = k ∧ tag = a then (s.entry j tag).map f else s.entry j tag := by
  by_cases hslot : j = k ∧ tag = a
  · obtain ⟨rfl, rfl⟩ := hslot
    rw [if_pos ⟨rfl, rfl⟩, State.modEntry_entry]
  · rw [if_neg hslot, State.modEntry_entry_ne _ _ (slotOf_ne ha h (by tauto))]

/-- An order that counts as sent, read at any slot. -/
theorem sendOrder_entry {o : OrderPlace} (ho : ∀ a ∈ o.addressees, tagOk a = true) (h : tagOk tag = true) (s : State) :
    (s.sendOrder k o).entry j tag = if j = k then o.sentTo tag (s.entry j tag) else s.entry j tag := by
  have hone : ∀ {a : Nat} (f : Entry → Entry) (g : Entry → Option Entry), tagOk a = true → (∀ e, g e = some (f e)) →
      (s.modEntry k a f).entry j tag = if j = k then if tag ∈ [a] then (s.entry j tag).bind g else s.entry j tag
        else s.entry j tag := fun {a} f g ha hg => by
    rw [State.modEntry_entry_iff h ha]
    have hbind : (s.entry j tag).bind g = (s.entry j tag).map f := by
      cases s.entry j tag with
      | none => rfl
      | some e => exact hg e
    rw [hbind]
    by_cases hj : j = k <;> by_cases ht : tag = a <;> simp [hj, ht]
  have hlist : ∀ {tags : List Nat} (f : Entry → Entry) (g : Entry → Option Entry), (∀ a ∈ tags, tagOk a = true) →
      (∀ e, f (f e) = f e) → (∀ e, g e = some (f e)) →
      (tags.foldl (fun s tag => s.modEntry k tag f) s).entry j tag =
        if j = k then if tag ∈ tags then (s.entry j tag).bind g else s.entry j tag else s.entry j tag :=
    fun {tags} f g hok hf hg => by
      rw [State.foldl_modEntry_entry hf tags hok h]
      have hbind : (s.entry j tag).bind g = (s.entry j tag).map f := by
        cases s.entry j tag with
        | none => rfl
        | some e => exact hg e
      rw [hbind]
      by_cases hj : j = k <;> by_cases ht : tag ∈ tags <;> simp [hj, ht]
  cases o with
  | fence x a => exact hone _ _ (ho a List.mem_cons_self) fun _ => rfl
  | release a => exact hone _ _ (ho a List.mem_cons_self) fun _ => rfl
  | assign x a e => exact hone _ _ (ho a List.mem_cons_self) fun _ => rfl
  | probe x a => exact hone _ _ (ho a List.mem_cons_self) fun _ => rfl
  | adjust a e => exact hone _ _ (ho a List.mem_cons_self) fun _ => rfl
  | hush tags => exact hlist _ _ ho (fun _ => rfl) fun _ => rfl
  | wake tags => exact hlist _ _ ho Entry.sentWake_twice fun _ => rfl
  | drop x a =>
    have ha := ho a List.mem_cons_self
    by_cases hslot : j = k ∧ tag = a
    · obtain ⟨rfl, rfl⟩ := hslot
      have haddressed : tag ∈ (OrderPlace.drop x tag).addressees := List.mem_cons_self
      rw [if_pos rfl, OrderPlace.sentTo, if_pos haddressed]
      cases he : s.entry j tag with
      | none =>
        have hstate : s.slotState j tag ≠ .leaving := by simp only [State.slotState, he]; decide
        rw [State.sendOrder, if_neg hstate, State.modEntry_entry, he]
        rfl
      | some e =>
        have hstate : s.slotState j tag = e.state := by simp only [State.slotState, he]
        by_cases hl : e.state = .leaving
        · rw [State.sendOrder, if_pos (hstate.trans hl), State.vacate_entry]
          exact (if_pos hl).symm
        · rw [State.sendOrder, if_neg fun hc => hl (hstate.symm.trans hc), State.modEntry_entry, he]
          exact (if_neg hl).symm
    · have hne := slotOf_ne ha h (j := j) (k := k) (tag' := tag) (by tauto)
      have hkeeps : (s.sendOrder k (.drop x a)).entry j tag = s.entry j tag := by
        rw [State.sendOrder]
        split
        · exact State.vacate_entry_ne s hne
        · exact State.modEntry_entry_ne _ _ hne
      rw [hkeeps]
      by_cases hj : j = k
      · have hta : tag ∉ [a] := fun hc => hslot ⟨hj, List.mem_singleton.1 hc⟩
        rw [if_pos hj]
        exact (if_neg hta).symm
      · rw [if_neg hj]

theorem OrderPlace.takenBy_uncapped (o : OrderPlace) (e : Entry) : o.takenBy e.uncapped = (o.takenBy e).map Entry.uncapped := by
  obtain ⟨serial, occupied, contract, booked, capped, owed, body⟩ := e
  cases o with
  | drop x a => cases body <;> rfl
  | wake tags => cases body <;> rfl
  | _ => rfl

theorem OrderPlace.sentTo_uncapped (o : OrderPlace) (tag : Nat) (x : Option Entry) :
    o.sentTo tag (x.map Entry.uncapped) = (o.sentTo tag x).map Entry.uncapped := by
  unfold OrderPlace.sentTo
  split
  · cases x with
    | none => rfl
    | some e => exact o.takenBy_uncapped e
  · rfl

/-- An order that counts as sent leaves every home in service, and every fenced one, as what it is. -/
theorem OrderPlace.sentTo_state (o : OrderPlace) (tag : Nat) (x : Option Entry) {state : EntryState} (hv : state ≠ .leaving) :
    (∃ e, o.sentTo tag x = some e ∧ e.state = state) ↔ ∃ e, x = some e ∧ e.state = state := by
  unfold OrderPlace.sentTo
  split
  · cases x with
    | none => simp
    | some e =>
      obtain ⟨serial, occupied, contract, booked, capped, owed, body⟩ := e
      cases o with
      | drop y a =>
        cases body <;> simp [OrderPlace.takenBy, Entry.state, Entry.sent]
        exact fun h => hv h.symm
      | wake tags => cases body <;> simp [OrderPlace.takenBy, Entry.state, Entry.sent, Entry.setHushed]
      | _ => simp [OrderPlace.takenBy, Entry.state, Entry.sent]
  · rfl

/-! ## Orders, seen from the part -/

/-- Orders that count as sent touch the entries and the watches alone. -/
def HomesOnly (s s' : State) : Prop := s' = { s with roster := s'.roster, watches := s'.watches }

theorem HomesOnly.trans (h : HomesOnly s s') (h' : HomesOnly s' s'') : HomesOnly s s'' :=
  Eq.trans h' (congrArg (fun u : State => { u with roster := s''.roster, watches := s''.watches }) h)

theorem HomesOnly.foldl {α : Type} {f : State → α → State} (h : ∀ s a, HomesOnly s (f s a)) (l : List α) (s : State) :
    HomesOnly s (l.foldl f s) := by
  induction l generalizing s with
  | nil => exact rfl
  | cons a l ih => exact (h s a).trans (ih (f s a))

theorem HomesOnly.sendOrder (s : State) (o : OrderPlace) : HomesOnly s (s.sendOrder k o) := by
  cases o with
  | drop x a =>
    rw [State.sendOrder]
    split <;> exact rfl
  | hush tags => exact .foldl (f := fun s tag => s.modEntry k tag (Entry.sent .hush)) (fun _ _ => rfl) tags s
  | wake tags => exact .foldl (f := fun s tag => s.modEntry k tag fun e => (e.sent .wake).setHushed false) (fun _ _ => rfl) tags s
  | _ => exact rfl

/-- Several orders, read at any slot. -/
theorem sendOrders_entry {orders : List OrderPlace} (ho : ∀ o ∈ orders, ∀ a ∈ o.addressees, tagOk a = true)
    (h : tagOk tag = true) (s : State) :
    (orders.foldl (State.sendOrder k) s).entry j tag =
      if j = k then orders.foldl (fun x o => o.sentTo tag x) (s.entry j tag) else s.entry j tag := by
  induction orders generalizing s with
  | nil => exact (ite_self _).symm
  | cons o rest ih =>
    obtain ⟨ho, hrest⟩ := List.forall_mem_cons.1 ho
    rw [List.foldl_cons, ih hrest, sendOrder_entry ho h]
    by_cases hj : j = k
    · rw [if_pos hj, if_pos hj, if_pos hj, List.foldl_cons]
    · rw [if_neg hj, if_neg hj, if_neg hj]

theorem sentTo_foldl_uncapped (orders : List OrderPlace) (tag : Nat) (x : Option Entry) :
    orders.foldl (fun x o => o.sentTo tag x) (x.map Entry.uncapped) =
      (orders.foldl (fun x o => o.sentTo tag x) x).map Entry.uncapped := by
  induction orders generalizing x with
  | nil => rfl
  | cons o rest ih => rw [List.foldl_cons, OrderPlace.sentTo_uncapped, ih, List.foldl_cons]

theorem sentTo_foldl_state (orders : List OrderPlace) (tag : Nat) (x : Option Entry) {state : EntryState}
    (hv : state ≠ .leaving) :
    (∃ e, orders.foldl (fun x o => o.sentTo tag x) x = some e ∧ e.state = state) ↔ ∃ e, x = some e ∧ e.state = state := by
  induction orders generalizing x with
  | nil => rfl
  | cons o rest ih => exact (ih _).trans (o.sentTo_state tag x hv)

/-! ## Orders, seen from another tree -/

theorem State.treeEntries_modEntry_ne {a : Nat} (ha : tagOk a = true) (hj : j ≠ k) (f : Entry → Entry) :
    (s.modEntry k a f).treeEntries j = s.treeEntries j := by
  obtain ⟨hslot, -, -⟩ := slot_of_slotOf (t := k) ha
  unfold State.treeEntries State.modEntry Store.modify
  rw [List.filterMap_map]
  refine List.filterMap_congr fun x _ => ?_
  by_cases hx : x.1 = slotOf k a
  · have hne : slotTree x.1 ≠ j.val := fun hc => hj (Fin.ext (hc.symm.trans ((congrArg slotTree hx).trans hslot)))
    simp only [Function.comp, if_pos hx, if_neg hne]
  · simp only [Function.comp, if_neg hx]

theorem State.treeEntries_vacate_ne {a : Nat} (ha : tagOk a = true) (hj : j ≠ k) :
    (s.vacate k a).treeEntries j = s.treeEntries j := by
  obtain ⟨hslot, -, -⟩ := slot_of_slotOf (t := k) ha
  unfold State.treeEntries State.vacate Store.erase
  rw [List.filterMap_filter]
  refine List.filterMap_congr fun x _ => ?_
  by_cases hx : x.1 = slotOf k a
  · have hne : slotTree x.1 ≠ j.val := fun hc => hj (Fin.ext (hc.symm.trans ((congrArg slotTree hx).trans hslot)))
    simp only [hx, ne_eq, not_true_eq_false, decide_false, Bool.false_eq_true, if_false]
    rw [← hx, if_neg hne]
  · simp only [ne_eq, hx, not_false_eq_true, decide_true, if_true]

theorem State.treeEntries_foldl {α : Type} {f : State → α → State} (l : List α) (s : State)
    (h : ∀ a ∈ l, ∀ u : State, (f u a).treeEntries j = u.treeEntries j) : (l.foldl f s).treeEntries j = s.treeEntries j := by
  induction l generalizing s with
  | nil => rfl
  | cons a l ih =>
    obtain ⟨ha, hl⟩ := List.forall_mem_cons.1 h
    rw [List.foldl_cons, ih _ hl, ha]

/-- An order of one tree leaves the entries of another. -/
theorem sendOrder_treeEntries_ne {o : OrderPlace} (ho : ∀ a ∈ o.addressees, tagOk a = true) (hj : j ≠ k) (s : State) :
    (s.sendOrder k o).treeEntries j = s.treeEntries j := by
  cases o with
  | drop x a =>
    have ha := ho a List.mem_cons_self
    rw [State.sendOrder]
    split
    · exact State.treeEntries_vacate_ne ha hj
    · exact State.treeEntries_modEntry_ne ha hj _
  | hush tags => exact State.treeEntries_foldl _ _ fun a ha _ => State.treeEntries_modEntry_ne (ho a ha) hj _
  | wake tags => exact State.treeEntries_foldl _ _ fun a ha _ => State.treeEntries_modEntry_ne (ho a ha) hj _
  | fence x a => exact State.treeEntries_modEntry_ne (ho a List.mem_cons_self) hj _
  | release a => exact State.treeEntries_modEntry_ne (ho a List.mem_cons_self) hj _
  | assign x a e => exact State.treeEntries_modEntry_ne (ho a List.mem_cons_self) hj _
  | probe x a => exact State.treeEntries_modEntry_ne (ho a List.mem_cons_self) hj _
  | adjust a e => exact State.treeEntries_modEntry_ne (ho a List.mem_cons_self) hj _

end Sys2Proof.Machine
end

section
/-! PROOFS. The beginning of a round: the frame of each tree, what the others leave of it, and what is carried over (O21, O22, O26). -/

namespace Sys2Proof.Machine

variable {s s' s'' : State} {k j : TreeId} {tag n : Nat} {r : PlanRecord}

/-! ## The parts of a frame (R63 to R72) -/

/-- The general places of the frame that a tree begins (R67). -/
def State.frameGeneral (s : State) (k : TreeId) : List OrderPlace := generalPlaces (s.treeEntries k) (s.enrolmentPlace k)

/-- The orders of the frame that a tree begins (R66, R67). -/
def State.frameOrders (s : State) (k : TreeId) : List OrderPlace := (s.enrolmentPlace k).toList ++ s.frameGeneral k

/-- The part once the orders of a frame have counted as sent (R68). -/
def State.ordersSent (s : State) (k : TreeId) : State :=
  ((s.frameOrders k).foldl (State.sendOrder k) s).modEngine k fun g => { g with bookedProbe := none }

/-- What packing leaves for the frame of a record (R72). -/
def State.framePacked (s : State) (k : TreeId) (r : PlanRecord) : Packed :=
  packPayload k (frameBytes - headLength r.grants.length (s.enrolmentPlace k) (s.frameGeneral k)) []
    (s.tree k).framer.buffer (s.ordersSent k)

/-- The frame of a record (R63). -/
def State.frameOf (s : State) (k : TreeId) (r : PlanRecord) : Frame :=
  { settling := r.settling, round := s.round, window := r.window, dark := r.dark, grants := r.grants
    enrolment := s.enrolmentPlace k, general := s.frameGeneral k, payload := (s.framePacked k r).sent }

/-- The part as its frame goes out, before the quiet condition is tested. -/
def State.frameSent (s : State) (k : TreeId) (r : PlanRecord) : State :=
  (s.framePacked k r).state.modFramer k fun _ => { buffer := (s.framePacked k r).left, frame := some (s.frameOf k r) }

theorem State.ordersSent_tree : (s.ordersSent k).tree k =
    { s.tree k with engine := { (s.tree k).engine with bookedProbe := none } } := by
  have htree : ((s.frameOrders k).foldl (State.sendOrder k) s).tree k = s.tree k :=
    State.tree_of_trees (congrArg State.trees (HomesOnly.foldl .sendOrder (s.frameOrders k) s) :) k
  rw [State.ordersSent, State.modEngine, State.modTree, State.setTree_tree, htree]

theorem State.ordersSent_tree_ne (h : j ≠ k) : (s.ordersSent k).tree j = s.tree j := by
  have htree : ((s.frameOrders k).foldl (State.sendOrder k) s).tree j = s.tree j :=
    State.tree_of_trees (congrArg State.trees (HomesOnly.foldl .sendOrder (s.frameOrders k) s) :) j
  rw [State.ordersSent, State.modEngine, State.modTree_tree_ne _ _ h, htree]

theorem State.framePacked_counted (s : State) (k : TreeId) (r : PlanRecord) :
    Counted (s.ordersSent k) (s.framePacked k r).state := by
  obtain ⟨taken, h⟩ := packPayload_spec k (frameBytes - headLength r.grants.length (s.enrolmentPlace k) (s.frameGeneral k)) []
    (s.tree k).framer.buffer (s.ordersSent k)
  exact h.counted

theorem State.beginFrame_of_none (h : (s.tree k).record (s.round + 1) = none) :
    s.beginFrame k = s.modFramer k fun f => { f with frame := none } := by
  simp only [State.beginFrame, h]

theorem State.beginFrame_of_record (h : (s.tree k).record (s.round + 1) = some r) :
    s.beginFrame k = (s.frameSent k r).quietTest k := by
  have hbuffer : ((s.ordersSent k).tree k).framer.buffer = (s.tree k).framer.buffer := by rw [State.ordersSent_tree]
  have hpacked : s.framePacked k r = packPayload k
      (frameBytes - headLength r.grants.length (s.enrolmentPlace k) (s.frameGeneral k)) []
      ((s.ordersSent k).tree k).framer.buffer (s.ordersSent k) := by rw [hbuffer]; rfl
  simp only [State.frameSent, State.frameOf, hpacked]
  simp only [State.beginFrame, h]
  rfl

/-! ## The quiet condition (R132) -/

/-- The suspicion state after the quiet condition is tested. -/
def State.quietSuspicion (s : State) (k : TreeId) : Suspicion :=
  match (s.tree k).light.suspicion with
  | .hunt h =>
    if h.effective = none ∧ quietHolds (s.treeEntries k) h.phase = true then .hunt { h with effective := some (s.round + 1) }
    else .hunt h
  | x => x

theorem State.setTree_self (s : State) (k : TreeId) : s.setTree k (s.tree k) = s :=
  congrArg (fun q : Quad Tree => { s with trees := q }) (Quad.set_get s.trees k)

theorem State.quietTest_eq (s : State) (k : TreeId) :
    s.quietTest k = s.setTree k { s.tree k with light := { (s.tree k).light with suspicion := s.quietSuspicion k } } := by
  have hself : ∀ sus, sus = (s.tree k).light.suspicion →
      s.setTree k { s.tree k with light := { (s.tree k).light with suspicion := sus } } = s := fun sus h => by
    subst h
    exact s.setTree_self k
  cases hs : (s.tree k).light.suspicion with
  | hunt h =>
    have hhunt : s.huntOf k = some h := State.huntOf_of_hunt hs
    cases he : h.effective with
    | some m =>
      have hsus : s.quietSuspicion k = (s.tree k).light.suspicion := by simp [State.quietSuspicion, hs, he]
      rw [hself _ hsus]
      simp only [State.quietTest, hhunt, he]
    | none =>
      by_cases hq : quietHolds (s.treeEntries k) h.phase = true
      · have hsus : s.quietSuspicion k = .hunt { h with effective := some (s.round + 1) } := by
          simp [State.quietSuspicion, hs, he, hq]
        rw [hsus]
        simp only [State.quietTest, hhunt, he, if_pos hq]
        rfl
      · have hsus : s.quietSuspicion k = (s.tree k).light.suspicion := by simp [State.quietSuspicion, hs, hq]
        rw [hself _ hsus]
        simp only [State.quietTest, hhunt, he, if_neg hq]
  | _ =>
    have hhunt : s.huntOf k = none := by simp only [State.huntOf, hs]
    have hsus : s.quietSuspicion k = (s.tree k).light.suspicion := by simp only [State.quietSuspicion, hs]
    rw [hself _ hsus]
    simp only [State.quietTest, hhunt]

/-! ## The frame of one tree, seen from each tree -/

/-- The tree of a frame: the PROBE is no longer booked, the packets left stay, and a hunt may begin its step. -/
theorem State.beginFrame_tree (h : (s.tree k).record (s.round + 1) = some r) :
    (s.beginFrame k).tree k = { s.tree k with
      engine := { (s.tree k).engine with bookedProbe := none }
      framer := { buffer := (s.framePacked k r).left, frame := some (s.frameOf k r) }
      light := { (s.tree k).light with suspicion := (s.frameSent k r).quietSuspicion k } } := by
  have hsent : (s.frameSent k r).tree k = { s.tree k with
      engine := { (s.tree k).engine with bookedProbe := none }
      framer := { buffer := (s.framePacked k r).left, frame := some (s.frameOf k r) } } := by
    rw [State.frameSent, State.modFramer, State.modTree, State.setTree_tree, (s.framePacked_counted k r).tree,
      State.ordersSent_tree]
  rw [State.beginFrame_of_record h, State.quietTest_eq, State.setTree_tree, hsent]

theorem State.beginFrame_tree_of_none (h : (s.tree k).record (s.round + 1) = none) :
    (s.beginFrame k).tree k = { s.tree k with framer := { (s.tree k).framer with frame := none } } := by
  rw [State.beginFrame_of_none h, State.modFramer, State.modTree, State.setTree_tree]

theorem State.beginFrame_tree_ne (h : j ≠ k) : (s.beginFrame k).tree j = s.tree j := by
  cases hr : (s.tree k).record (s.round + 1) with
  | none => rw [State.beginFrame_of_none hr, State.modFramer, State.modTree_tree_ne _ _ h]
  | some r =>
    rw [State.beginFrame_of_record hr, State.quietTest_eq, State.setTree_tree_ne _ _ h, State.frameSent, State.modFramer,
      State.modTree_tree_ne _ _ h, (s.framePacked_counted k r).tree, State.ordersSent_tree_ne h]

/-- What the beginning of a round leaves of the part: everything but the trees, the entries, the watches, the counts of the open
meters and the notices. -/
structure Framed (s s' : State) : Prop where
  frame : s' = { s with
    trees := s'.trees, roster := s'.roster, meters := s'.meters, watches := s'.watches, ports := s'.ports }
  meters : ∀ n, MeterKept (Store.read n s.meters) (Store.read n s'.meters)
  ports : ∀ p, s'.port p = { s.port p with notices := (s'.port p).notices, line := (s'.port p).line }

theorem Framed.refl (s : State) : Framed s s := ⟨rfl, fun _ => .refl _, fun _ => rfl⟩

theorem Framed.trans (h : Framed s s') (h' : Framed s' s'') : Framed s s'' where
  frame := h'.frame.trans (congrArg (fun u : State =>
    { u with
      trees := s''.trees, roster := s''.roster, meters := s''.meters, watches := s''.watches, ports := s''.ports }) h.frame)
  meters n := (h.meters n).trans (h'.meters n)
  ports p := (h'.ports p).trans (congrArg (fun x : PortState =>
    { x with notices := (s''.port p).notices, line := (s''.port p).line }) (h.ports p))

theorem Framed.setTree (k : TreeId) (x : Tree) : Framed s (s.setTree k x) := ⟨rfl, fun _ => .refl _, fun _ => rfl⟩

theorem HomesOnly.framed (h : HomesOnly s s') : Framed s s' := by
  rw [h]
  exact ⟨rfl, fun _ => .refl _, fun _ => rfl⟩

theorem Counted.framed (h : Counted s s') : Framed s s' where
  frame := h.frame.trans (congrArg (fun t => { s with
    trees := t, roster := s'.roster, meters := s'.meters, watches := s'.watches, ports := s'.ports })
      (congrArg State.trees h.frame :).symm)
  meters := h.meters
  ports := h.ports

theorem Framed.beginFrame (s : State) (k : TreeId) : Framed s (s.beginFrame k) := by
  cases hr : (s.tree k).record (s.round + 1) with
  | none =>
    rw [State.beginFrame_of_none hr]
    exact .setTree k _
  | some r =>
    have hsent : Framed s (s.ordersSent k) := (HomesOnly.foldl .sendOrder (s.frameOrders k) s).framed.trans (.setTree k _)
    rw [State.beginFrame_of_record hr, State.quietTest_eq]
    exact ((hsent.trans (s.framePacked_counted k r).framed).trans (.setTree k _)).trans (.setTree k _)

end Sys2Proof.Machine
end

section
/-! PROOFS. The beginning of a round: what each tree and each slot finds of it (O21, O22, O26). -/

namespace Sys2Proof.Machine

variable {s s' s'' : State} {k j : TreeId} {tag n : Nat} {r : PlanRecord}

/-! ## One tree among the four -/

/-- Four steps, one for each tree, around the step of one of them: what the others' steps keep is kept before it and after it. -/
theorem foldl_around {f : State → TreeId → State} {Kept : State → State → Prop} (k : TreeId) (hrefl : ∀ u, Kept u u)
    (htrans : ∀ {u v w}, Kept u v → Kept v w → Kept u w) (h : ∀ u j, j ≠ k → Kept u (f u j)) (s : State) :
    ∃ u, Kept s u ∧ Kept (f u k) (allFour.foldl f s) := by
  have hfold : ∀ (l : List TreeId) (u : State), k ∉ l → Kept u (l.foldl f u) := by
    intro l
    induction l with
    | nil => exact fun u _ => hrefl u
    | cons j l ih =>
      intro u hl
      obtain ⟨hj, hl⟩ := not_or.1 (mt List.mem_cons.2 hl)
      exact htrans (h u j (Ne.symm hj)) (ih (f u j) hl)
  have hmem : k ∈ allFour := by fin_cases k <;> decide
  obtain ⟨a, b, hab⟩ := List.append_of_mem hmem
  have hnodup := allFour_nodup
  rw [hab, List.nodup_append, List.nodup_cons] at hnodup
  obtain ⟨-, ⟨hb, -⟩, hdisj⟩ := hnodup
  have ha : k ∉ a := fun hc => hdisj k hc k List.mem_cons_self rfl
  refine ⟨a.foldl f s, hfold a s ha, ?_⟩
  rw [hab, List.foldl_append, List.foldl_cons]
  exact hfold b _ hb

/-! ## The round that is attributed (R152) -/

/-- The part as its next round is attributed (R9, R152). -/
def State.attributed (s : State) : State := allFour.foldl State.attributeRound s.rolled

theorem State.beginRound_eq (s : State) : s.beginRound = (allFour.foldl State.beginFrame s.attributed).takeHeldPacket := rfl

theorem State.attributeRound_frame (s : State) (k : TreeId) :
    s.attributeRound k = { s with meters := (s.attributeRound k).meters } := by
  unfold State.attributeRound
  split <;> rfl

theorem State.attributed_frame (s : State) : s.attributed = { s.rolled with meters := s.attributed.meters } := by
  have hfold : ∀ (l : List TreeId) (u : State), l.foldl State.attributeRound u =
      { u with meters := (l.foldl State.attributeRound u).meters } := by
    intro l
    induction l with
    | nil => exact fun _ => rfl
    | cons j l ih =>
      intro u
      exact (ih (u.attributeRound j)).trans (congrArg (fun v : State =>
        { v with meters := (l.foldl State.attributeRound (u.attributeRound j)).meters }) (u.attributeRound_frame j))
  exact hfold allFour s.rolled

theorem State.attributed_tree (s : State) (k : TreeId) : s.attributed.tree k = (s.tree k).roll s.round :=
  (State.tree_of_trees (congrArg State.trees s.attributed_frame :) k).trans (State.rolled_tree k)

theorem State.attributed_round (s : State) : s.attributed.round = s.round + 1 := (congrArg State.round s.attributed_frame :)

theorem State.attributed_roster (s : State) : s.attributed.roster = s.roster := (congrArg State.roster s.attributed_frame :)

/-- A tree at the end of a round has the records it had, but for those of that round. -/
theorem Tree.roll_record (x : Tree) {old m : Round} (h : m ≠ old) : (x.roll old).record m = x.record m := by
  show (x.plans.filter fun r => r.round ≠ old).find? (fun r => r.round = m) = x.plans.find? fun r => r.round = m
  rw [List.find?_filter]
  refine congrArg (fun p => List.find? p x.plans) (funext fun r => ?_)
  by_cases hr : r.round = m
  · simp [hr, h]
  · simp [hr]

theorem round_next_ne (n : Round) : n + 1 ≠ n ∧ n + 2 ≠ n ∧ n + 1 + 1 = n + 2 := by
  simp only [Round] at *
  bv_omega

/-! ## The frames of the four trees -/

/-- What the frames of the other trees leave of one. -/
structure TreeKept (k : TreeId) (s s' : State) : Prop where
  framed : Framed s s'
  tree : s'.tree k = s.tree k

theorem TreeKept.refl (k : TreeId) (s : State) : TreeKept k s s := ⟨.refl s, rfl⟩

theorem TreeKept.trans (h : TreeKept k s s') (h' : TreeKept k s' s'') : TreeKept k s s'' :=
  ⟨h.framed.trans h'.framed, h'.tree.trans h.tree⟩

theorem TreeKept.beginFrame (h : j ≠ k) (s : State) : TreeKept k s (s.beginFrame j) :=
  ⟨.beginFrame s j, State.beginFrame_tree_ne (Ne.symm h)⟩

theorem Framed.round (h : Framed s s') : s'.round = s.round := (congrArg State.round h.frame :)

/-- The frames of a round, around that of one tree. -/
theorem frames_around (s : State) (k : TreeId) :
    ∃ u, TreeKept k s u ∧ TreeKept k (u.beginFrame k) (allFour.foldl State.beginFrame s) :=
  foldl_around k (TreeKept.refl k) TreeKept.trans (fun u _ hj => .beginFrame hj u) s

theorem State.takeHeldPacket_tree_buffer (s : State) (k : TreeId) : ∃ buffer,
    s.takeHeldPacket.tree k = { s.tree k with framer := { (s.tree k).framer with buffer := buffer } } := by
  unfold State.takeHeldPacket
  split
  · exact ⟨_, rfl⟩
  · rename_i o _
    simp only
    split
    · exact ⟨_, rfl⟩
    · split
      · by_cases hk : k = o.tree
        · subst hk
          exact ⟨_, Quad.get_set_self _ _ _⟩
        · exact ⟨(s.tree k).framer.buffer, State.modTree_tree_ne (s := { s with heldPacket := none }) _ hk⟩
      · exact ⟨_, rfl⟩

/-- What the frames of the round leave, but for the packet at the interface. -/
theorem Framed.frames (s : State) : Framed s (allFour.foldl State.beginFrame s) := by
  have h : ∀ (l : List TreeId) (u : State), Framed u (l.foldl State.beginFrame u) := by
    intro l
    induction l with
    | nil => exact .refl
    | cons j l ih => exact fun u => (Framed.beginFrame u j).trans (ih _)
  exact h allFour s

/-- What the beginning of a round makes of a tree (R9, R11, R12). -/
theorem beginRound_tree (s : State) (k : TreeId) :
    let x := (s.tree k).roll s.round
    ((s.tree k).record (s.round + 2) = none ∧ (∃ buffer,
      s.beginRound.tree k = { x with framer := { buffer := buffer, frame := none } })) ∨
    ∃ (r : PlanRecord) (u : State) (buffer : List DownPacket) (sus : Suspicion),
      (s.tree k).record (s.round + 2) = some r ∧ TreeKept k s.attributed u ∧
      s.beginRound.tree k = { x with
        engine := { x.engine with bookedProbe := none }
        framer := { buffer := buffer, frame := some (u.frameOf k r) }
        light := { x.light with suspicion := sus } } := by
  intro x
  obtain ⟨u, hbefore, hafter⟩ := frames_around s.attributed k
  obtain ⟨-, hne, htwo⟩ := round_next_ne s.round
  have hround : u.round + 1 = s.round + 2 := by rw [hbefore.framed.round, State.attributed_round, htwo]
  have htree : u.tree k = x := hbefore.tree.trans (s.attributed_tree k)
  have hrecord : (u.tree k).record (u.round + 1) = (s.tree k).record (s.round + 2) := by
    rw [hround, htree, Tree.roll_record _ hne]
  obtain ⟨buffer, hheld⟩ := (allFour.foldl State.beginFrame s.attributed).takeHeldPacket_tree_buffer k
  rw [← State.beginRound_eq, hafter.tree] at hheld
  cases hr : (s.tree k).record (s.round + 2) with
  | none =>
    rw [State.beginFrame_tree_of_none (hrecord.trans hr), htree] at hheld
    exact .inl ⟨rfl, buffer, hheld⟩
  | some r =>
    rw [State.beginFrame_tree (hrecord.trans hr), htree] at hheld
    exact .inr ⟨r, u, buffer, _, rfl, hbefore, hheld⟩

/-- The part as the frames of its next round have begun (R12). -/
def State.framesBegun (s : State) : State := allFour.foldl State.beginFrame s.attributed

theorem frame_of_steps {t w a b : State} (ht : t = { w with trees := t.trees, heldPacket := t.heldPacket })
    (hw : w = { a with
      trees := w.trees, roster := w.roster, meters := w.meters, watches := w.watches, ports := w.ports })
    (ha : a = { b with meters := a.meters }) :
    t = { b with
      trees := t.trees, roster := w.roster, meters := w.meters, watches := w.watches, ports := w.ports
      heldPacket := t.heldPacket } :=
  ht.trans ((congrArg (fun u : State => { u with trees := t.trees, heldPacket := t.heldPacket }) hw).trans
    (congrArg (fun u : State => { u with
      trees := t.trees, heldPacket := t.heldPacket, roster := w.roster, meters := w.meters, watches := w.watches
      ports := w.ports }) ha))

theorem State.beginRound_frame (s : State) :
    s.beginRound = { s.rolled with
      trees := s.beginRound.trees, roster := s.framesBegun.roster, meters := s.framesBegun.meters
      watches := s.framesBegun.watches, ports := s.framesBegun.ports, heldPacket := s.beginRound.heldPacket } :=
  frame_of_steps s.framesBegun.takeHeldPacket_eq (Framed.frames s.attributed).frame s.attributed_frame

theorem State.beginRound_port (s : State) (p : Port) : s.beginRound.port p =
    { s.port p with notices := (s.beginRound.port p).notices, line := (s.beginRound.port p).line } := by
  have hports : s.beginRound.ports = s.framesBegun.ports := by rw [s.beginRound_frame]
  have hport : s.beginRound.port p = s.framesBegun.port p := by rw [State.port, hports, State.port]
  have hbefore : s.attributed.port p = s.port p := by
    rw [s.attributed_frame]
    rfl
  rw [hport, ← hbefore]
  exact (Framed.frames s.attributed).ports p

theorem State.frameGeneral_length (s : State) (k : TreeId) : (s.frameGeneral k).length ≤ 7 := List.length_take_le _ _

/-- Settles O21: the part beside the trees, then each tree with and without a record for the round after the new one. -/
theorem roundBegins : Obligations.RoundBegins := by
  intro s
  have hframe := s.beginRound_frame
  refine ⟨s.beginRound, rfl, (congrArg State.round hframe :), (congrArg State.cutTaken hframe :), fun k => ?_,
    (congrArg State.queue hframe :), (congrArg State.journal hframe :), (congrArg State.admissions hframe :),
    (congrArg State.openMode hframe :), (congrArg State.band hframe :), (congrArg State.routes hframe :),
    (congrArg State.upBuffer hframe :), (congrArg State.tickets hframe :), fun p => ?_⟩
  · have hfind : (s.tree k).plans.find? (fun r => r.round = s.round + 2) = (s.tree k).record (s.round + 2) := rfl
    rw [hfind]
    obtain ⟨hr, buffer, htree⟩ | ⟨r, u, buffer, sus, hr, hu, htree⟩ := beginRound_tree s k <;> rw [htree, hr]
    · exact ⟨rfl, rfl, rfl, rfl, rfl, rfl, rfl, rfl, rfl, rfl, rfl⟩
    · have hround : u.round = s.round + 1 := hu.framed.round.trans s.attributed_round
      exact ⟨rfl, rfl, rfl, rfl, rfl, rfl, rfl, rfl, rfl, rfl,
        u.frameOf k r, rfl, hround, rfl, rfl, rfl, rfl, u.frameGeneral_length k⟩
  · rw [s.beginRound_port p]
    exact ⟨rfl, rfl, rfl, rfl, rfl⟩

/-! ## What is carried over the round's end (R69, R87, R89) -/

theorem guardOpen_iff {mark : Option GrantMark} :
    guardOpen mark = true ↔ ∃ ok lightEnd ranOn, mark = some (.heard ok lightEnd ranOn true) := by
  unfold guardOpen
  split
  · rename_i ok lightEnd ranOn isOpen
    constructor
    · rintro rfl
      exact ⟨ok, lightEnd, ranOn, rfl⟩
    · rintro ⟨_, _, _, h⟩
      cases h
      rfl
  · rename_i hno
    refine ⟨nofun, fun ⟨ok, lightEnd, ranOn, h⟩ => absurd h (hno ok lightEnd ranOn true)⟩

section
variable {x : Tree} {old : Round}

/-- The last grant of the round that ends is carried over where its end is still open. -/
theorem Tree.roll_carried {g : Grant} (h : (x.record old).bind (fun r => r.grants.getLast?) = some g) :
    (x.roll old).checker.carried =
      if x.checker.muted = false ∧ (g.stop = 1875 ∨ g.stop + 1 = 1875 ∧ guardOpen (Store.read g.tag x.checker.marks) = true) then
        some { round := old, grant := g, mark := Store.read g.tag x.checker.marks }
      else none := by
  simp only [Tree.roll, h]
  rfl

theorem Tree.roll_carried_of_none (h : (x.record old).bind (fun r => r.grants.getLast?) = none) :
    (x.roll old).checker.carried = none := by
  simp only [Tree.roll, h]

theorem Tree.roll_carriedIdle :
    (x.roll old).checker.carriedIdle = (x.idleOpen old).map fun first => { round := old, first := first } := rfl

end

/-- Settles O22: the beginning of a round leaves the checker as the end of the old one made it. -/
theorem openEndsCarried : Obligations.OpenEndsCarried := by
  intro s k
  refine ⟨s.beginRound, rfl, ?_⟩
  intro x open1873 keeps last
  have hchecker : (s.beginRound.tree k).checker = (x.roll s.round).checker := by
    obtain ⟨-, buffer, htree⟩ | ⟨r, u, buffer, sus, -, -, htree⟩ := beginRound_tree s k <;> rw [htree]
  have hold : s.round ≠ s.beginRound.round := by
    rw [s.beginRound_frame]
    exact (round_next_ne s.round).1.symm
  have hlast : ∀ g, last g ↔ (x.record s.round).bind (fun r => r.grants.getLast?) = some g := fun g => by
    simp only [last, Option.bind_eq_some_iff, List.getLast?_eq_some_iff]
    exact ⟨fun ⟨r, front, hr, hg⟩ => ⟨r, hr, front, hg⟩, fun ⟨r, hr, front, hg⟩ => ⟨r, front, hr, hg⟩⟩
  have hkeeps : ∀ g, keeps g ↔ x.checker.muted = false ∧
      (g.stop = 1875 ∨ g.stop + 1 = 1875 ∧ guardOpen (Store.read g.tag x.checker.marks) = true) := fun g => by
    have hstop : g.start + g.length = g.stop := rfl
    simp only [keeps, open1873, guardOpen_iff, hstop]
    exact and_congr_right fun _ => or_congr_right (and_congr_left fun _ => by omega)
  have hnone : (x.roll s.round).checker.carried = none → s.beginRound.grantsOf k s.round = [] := fun h => by
    simp only [State.grantsOf, if_neg hold, hchecker, h]
  refine ⟨fun g hg hk => ?_, fun h => hnone ?_, fun r hr => ?_, fun hr => ?_, ?_, ?_, ?_, ?_⟩
  · have hcarried := (congrArg Checker.carried hchecker).trans
      ((Tree.roll_carried ((hlast g).1 hg)).trans (if_pos ((hkeeps g).1 hk)))
    exact ⟨State.grantsOf_carried hold hcarried, State.markOf_carried hold hcarried⟩
  · cases hg : (x.record s.round).bind fun r => r.grants.getLast? with
    | none => exact Tree.roll_carried_of_none hg
    | some g => exact (Tree.roll_carried hg).trans (if_neg fun hc => h g ((hlast g).2 hg) ((hkeeps g).2 hc))
  · intro first
    have hidle : x.idleOpen s.round =
        if x.judges ∧ x.checker.idleTaken = false ∧ first + 8 ≤ 1875 then some first else none := by
      simp only [Tree.idleOpen, hr]
      rfl
    rw [hchecker, Tree.roll_carriedIdle, hidle]
    refine ⟨fun hp hm hi hf => ?_, fun hno => ?_⟩
    · rw [if_pos ⟨Tree.judges_of hp hm, hi, hf⟩]
      rfl
    · rw [if_neg fun hc => ?_]
      · rfl
      · obtain ⟨hj, hi, hf⟩ := hc
        simp only [Tree.judges, Bool.and_eq_true, decide_eq_true_eq, Bool.not_eq_true'] at hj
        obtain ⟨hp, hm⟩ := hj
        obtain h | h | h | h := hno
        · exact h hp
        · exact absurd (h.symm.trans hm) (by decide)
        · exact absurd (h.symm.trans hi) (by decide)
        · omega
  · have hidle : x.idleOpen s.round = none := by simp only [Tree.idleOpen, hr]
    rw [hchecker, Tree.roll_carriedIdle, hidle]
    rfl
  · rw [hchecker]; rfl
  · rw [hchecker]; rfl
  · rw [hchecker]; rfl
  · rw [hchecker]; rfl

/-! ## The counts of a round (R152) -/

/-- The meters of a slot after the round that begins is attributed from its record. -/
def Meters.attributed (m : Meters) (r : PlanRecord) (tag : Nat) (occupant : Option Entry) : Meters :=
  occupant.elim (m.addRound (Store.read tag r.marks)) fun e =>
    (m.addRound (Store.read tag r.marks)).addGranted (grantedQuanta r.grants tag e.occupied)

theorem State.attributeRound_meterOf (h : tagOk tag = true) (hr : (s.tree k).record s.round = some r) :
    (s.attributeRound k).meterOf j tag =
      if j = k then (s.meterOf j tag).map fun m => m.attributed r tag (s.entry j tag) else s.meterOf j tag := by
  obtain ⟨htree, htag, -⟩ := slot_of_slotOf (t := j) h
  have hmap : (s.attributeRound k).meters = s.meters.map fun x => (x.1,
      if slotTree x.1 = k.val then x.2.attributed r (slotTag x.1) (Store.read x.1 s.roster) else x.2) := by
    simp only [State.attributeRound, hr]
    refine List.map_congr_left fun x _ => ?_
    by_cases hx : slotTree x.1 = k.val
    · simp only [if_pos hx]
      cases hread : Store.read x.1 s.roster <;> rfl
    · simp only [if_neg hx]
  refine (congrArg (Store.read (slotOf j tag)) hmap).trans ((Store.read_map (fun n m =>
    if slotTree n = k.val then m.attributed r (slotTag n) (Store.read n s.roster) else m) (slotOf j tag) s.meters).trans ?_)
  rw [htree, htag]
  by_cases hj : j = k
  · subst hj
    simp only [if_true]
    rfl
  · have hne : ¬ j.val = k.val := fun hc => hj (Fin.ext hc)
    simp only [if_neg hne, if_neg hj]
    exact congrFun Option.map_id _

/-- What the attribution of the other trees leaves of a slot. -/
structure SlotKept (k : TreeId) (tag : Nat) (s s' : State) : Prop where
  frame : s' = { s with meters := s'.meters }
  meter : s'.meterOf k tag = s.meterOf k tag

theorem SlotKept.trans (h : SlotKept k tag s s') (h' : SlotKept k tag s' s'') : SlotKept k tag s s'' :=
  ⟨h'.frame.trans (congrArg (fun u : State => { u with meters := s''.meters }) h.frame), h'.meter.trans h.meter⟩

theorem SlotKept.attributeRound (h : tagOk tag = true) (hj : j ≠ k) (s : State) : SlotKept k tag s (s.attributeRound j) := by
  refine ⟨s.attributeRound_frame j, ?_⟩
  cases hr : (s.tree j).record s.round with
  | none => rw [State.attributeRound, hr]
  | some r => rw [State.attributeRound_meterOf h hr, if_neg (Ne.symm hj)]

/-- The meters of a slot as the frames of its round begin (R152). -/
theorem State.attributed_meterOf (s : State) (k : TreeId) (h : tagOk tag = true) :
    ((s.tree k).record (s.round + 1) = none → s.attributed.meterOf k tag = s.meterOf k tag) ∧
    ∀ r, (s.tree k).record (s.round + 1) = some r →
      s.attributed.meterOf k tag = (s.meterOf k tag).map fun m => m.attributed r tag (s.entry k tag) := by
  obtain ⟨u, hbefore, hafter⟩ := foldl_around (f := State.attributeRound) k (Kept := SlotKept k tag) (fun _ => ⟨rfl, rfl⟩)
    SlotKept.trans (fun u j hj => .attributeRound h hj u) s.rolled
  have htree : u.tree k = (s.tree k).roll s.round :=
    (State.tree_of_trees (congrArg State.trees hbefore.frame :) k).trans (State.rolled_tree k)
  have hround : u.round = s.round + 1 := (congrArg State.round hbefore.frame :)
  have hentry : u.entry k tag = s.entry k tag := State.entry_of_roster (congrArg State.roster hbefore.frame :) k tag
  have hrecord : (u.tree k).record u.round = (s.tree k).record (s.round + 1) := by
    rw [hround, htree, Tree.roll_record _ (round_next_ne s.round).1]
  have hmeter : s.attributed.meterOf k tag = (u.attributeRound k).meterOf k tag := hafter.meter
  have hold : u.meterOf k tag = s.meterOf k tag := hbefore.meter
  refine ⟨fun hr => ?_, fun r hr => ?_⟩ <;> rw [hmeter]
  · rw [State.attributeRound, hrecord, hr]
    exact hold
  · rw [State.attributeRound_meterOf h (hrecord.trans hr), if_pos rfl, hold, hentry]

theorem Meters.addGranted_eq (m : Meters) (n : Nat) :
    m.addGranted n = { m with granted := min 4294967295 (m.granted + n)
                              saturated := m.saturated || decide (4294967295 < m.granted + n) } := by
  simp only [Meters.addGranted, satAdd_eq]
  rfl

theorem Meters.addRound_eq (m : Meters) (mark : Option EntryMark) :
    let counted := fun (n : Nat) (x : EntryMark) => if mark = some x then min 4294967295 (n + 1) else n
    m.addRound mark = { m with
      inService := counted m.inService .inService, hushed := counted m.hushed .hushed, fenced := counted m.fenced .fenced
      saturated := m.saturated || decide ((mark = some .inService ∧ 4294967295 < m.inService + 1) ∨
        (mark = some .hushed ∧ 4294967295 < m.hushed + 1) ∨ (mark = some .fenced ∧ 4294967295 < m.fenced + 1)) } := by
  obtain _ | (_ | _ | _) := mark <;> simp [Meters.addRound, satAdd_eq, maxCount]

/-- The counts of a round, register by register. -/
theorem Meters.attributed_eq (m : Meters) (r : PlanRecord) (tag : Nat) (occupant : Option Entry) :
    let counted := fun (n : Nat) (x : EntryMark) => if Store.read tag r.marks = some x then min 4294967295 (n + 1) else n
    m.attributed r tag occupant = { m with
      inService := counted m.inService .inService, hushed := counted m.hushed .hushed, fenced := counted m.fenced .fenced
      granted := occupant.elim m.granted fun e => min 4294967295 (m.granted + grantedQuanta r.grants tag e.occupied)
      saturated := (m.attributed r tag occupant).saturated } := by
  cases occupant with
  | none =>
    simp only [Meters.attributed, Option.elim, Meters.addRound_eq]
  | some e =>
    simp only [Meters.attributed, Option.elim, Meters.addGranted_eq, Meters.addRound_eq]

theorem Meters.attributed_saturated (m : Meters) (r : PlanRecord) (tag : Nat) (occupant : Option Entry) :
    (m.attributed r tag occupant).saturated = true ↔ m.saturated = true ∨
      (Store.read tag r.marks = some .inService ∧ 4294967295 < m.inService + 1) ∨
      (Store.read tag r.marks = some .hushed ∧ 4294967295 < m.hushed + 1) ∨
      (Store.read tag r.marks = some .fenced ∧ 4294967295 < m.fenced + 1) ∨
      ∃ e : Entry, occupant = some e ∧ 4294967295 < m.granted + grantedQuanta r.grants tag e.occupied := by
  cases occupant with
  | none => simp [Meters.attributed, Meters.addRound_eq]
  | some e => simp [Meters.attributed, Meters.addGranted_eq, Meters.addRound_eq, or_assoc]

/-- Settles O26: the attribution of the round, and what the counts of the frames keep of it. -/
theorem roundCountsAttributed : Obligations.RoundCountsAttributed := by
  intro s
  refine ⟨s.beginRound, rfl, fun k tag htag => ?_⟩
  have hmeters : s.beginRound.meterOf k tag = s.framesBegun.meterOf k tag := by
    have h : s.beginRound.meters = s.framesBegun.meters := by rw [s.beginRound_frame]
    rw [State.meterOf, h, State.meterOf]
  have hkept : MeterKept (s.attributed.meterOf k tag) (s.beginRound.meterOf k tag) := by
    rw [hmeters]
    exact (Framed.frames s.attributed).meters (slotOf k tag)
  obtain ⟨hnone, hsome⟩ := s.attributed_meterOf k htag
  refine ⟨fun hm => hkept.closed ?_, fun m hm => ?_⟩
  · cases hr : (s.tree k).record (s.round + 1) with
    | none => exact (hnone hr).trans hm
    | some r => rw [hsome r hr, hm]; rfl
  cases hr : (s.tree k).record (s.round + 1) with
  | none =>
    obtain ⟨m', hm', hfields, hsat⟩ := hkept.opened m ((hnone hr).trans hm)
    have hno : ¬ roundSaturates s k tag m := fun ⟨r, hr', _⟩ => absurd (hr.symm.trans hr') nofun
    refine ⟨m', hm', ?_, ?_, ?_, fun h => hsat (h.resolve_right hno), fun _ => ?_, fun r hr' => absurd (hr.symm.trans hr') nofun⟩ <;>
      rw [hfields]
    exact ⟨rfl, rfl, rfl, rfl⟩
  | some r =>
    have hattributed : s.attributed.meterOf k tag = some (m.attributed r tag (s.entry k tag)) :=
      (hsome r hr).trans (congrArg _ hm)
    obtain ⟨m', hm', hfields, hsat⟩ := hkept.opened _ hattributed
    rw [Meters.attributed_eq] at hfields
    refine ⟨m', hm', ?_, ?_, ?_, fun h => hsat ?_, fun hno => ?_, fun r' hr' => ?_⟩
    · rw [hfields]
    · rw [hfields]
    · rw [hfields]
    · rw [Meters.attributed_saturated]
      refine h.imp_right fun ⟨r', hr', hmore⟩ => ?_
      obtain rfl : r = r' := Option.some.inj (hr.symm.trans hr')
      exact hmore
    · have hfind : (s.tree k).plans.find? (fun r => r.round = s.round + 1) = some r := hr
      exact absurd (by simpa using List.find?_some hfind) (hno r (List.mem_of_find?_eq_some hfind))
    · obtain rfl : r = r' := Option.some.inj (hr.symm.trans hr')
      intro counted
      rw [hfields]
      exact ⟨rfl, rfl, rfl, fun he => by rw [he]; rfl, fun e he => by rw [he]; rfl⟩

end Sys2Proof.Machine
end

section
/-! PROOFS. The beginning of a round, home by home: the order places (O23), the packets (O24) and the quiet condition (O25). -/

namespace Sys2Proof.Machine

variable {s s' s'' : State} {k j : TreeId} {tag n : Nat} {r : PlanRecord}

/-! ## The orders of a frame address tags (R66, R67) -/

/-- The PROBE booked on each tree, if any, names a tag. -/
def BookedOk (s : State) : Prop := ∀ t : TreeId, ∀ b ∈ (s.tree t).engine.bookedProbe, tagOk b.2 = true

theorem candidates_ok {entries : List (Nat × Entry)} (h : ∀ x ∈ entries, tagOk x.1 = true) :
    ∀ o ∈ candidates entries, ∀ a ∈ o.addressees, tagOk a = true := by
  have howing : ∀ kind, ∀ x ∈ owing kind entries, tagOk x.1 = true := fun kind x hx => h x (List.mem_filter.1 hx).1
  have hone : ∀ (kind : OrderKind) (f : Nat × Entry → OrderPlace), (∀ x, (f x).addressees = [x.1]) →
      ∀ o ∈ (owing kind entries).map f, ∀ a ∈ o.addressees, tagOk a = true := by
    intro kind f hf o ho a ha
    obtain ⟨x, hx, rfl⟩ := List.mem_map.1 ho
    rw [hf, List.mem_singleton] at ha
    exact ha ▸ howing kind x hx
  have hlist : ∀ (kind : OrderKind) (f : List Nat → OrderPlace), (∀ tags, (f tags).addressees = tags) →
      ∀ o ∈ listPlace f ((owing kind entries).map Prod.fst), ∀ a ∈ o.addressees, tagOk a = true := by
    intro kind f hf o ho a ha
    unfold listPlace at ho
    split at ho
    · cases ho
    · rw [List.mem_singleton.1 ho, hf] at ha
      obtain ⟨x, hx, rfl⟩ := List.mem_map.1 ha
      exact howing kind x hx
  intro o ho
  simp only [candidates, List.mem_append] at ho
  obtain ((((((h | h) | h) | h) | h) | h) | h) | h := ho
  · exact hone _ _ (fun _ => rfl) o h
  · exact hone _ _ (fun _ => rfl) o h
  · exact hlist _ _ (fun _ => rfl) o h
  · exact hlist _ _ (fun _ => rfl) o h
  · exact hone _ _ (fun _ => rfl) o h
  · exact hone _ _ (fun _ => rfl) o h
  · exact hone _ _ (fun _ => rfl) o h
  · exact hone _ _ (fun _ => rfl) o h

theorem State.frameGeneral_ok (s : State) (k : TreeId) : ∀ o ∈ s.frameGeneral k, ∀ a ∈ o.addressees, tagOk a = true :=
  fun o ho => candidates_ok (fun _ hx => State.treeEntries_tagOk hx) o (List.mem_filter.1 (List.mem_of_mem_take ho)).1

/-- The enrolment place holds the booked PROBE, or an ASSIGN of an entry of the tree. -/
theorem State.enrolmentPlace_cases (s : State) (k : TreeId) : ∀ o ∈ s.enrolmentPlace k,
    (∃ (b : Round × Nat) (x : Serial), b ∈ (s.tree k).engine.bookedProbe ∧ o = .probe x b.2) ∨
      ∃ x ∈ s.treeEntries k, o = assignPlace x.1 x.2 := by
  intro o ho
  unfold State.enrolmentPlace State.bookedProbe at ho
  cases hb : (s.tree k).engine.bookedProbe with
  | none =>
    simp only [hb] at ho
    obtain ⟨x, hx, rfl⟩ := Option.mem_map.1 ho
    exact .inr ⟨x, List.mem_of_find?_eq_some hx, rfl⟩
  | some b =>
    obtain ⟨frame, tag⟩ := b
    by_cases hf : frame = s.round
    · simp only [hb, if_pos hf] at ho
      cases he : s.entry k tag with
      | none => rw [he] at ho; cases ho
      | some e =>
        simp only [he] at ho
        split at ho
        · exact .inl ⟨_, _, rfl, (Option.mem_some.1 ho).symm⟩
        · cases ho
    · simp only [hb, if_neg hf] at ho
      obtain ⟨x, hx, rfl⟩ := Option.mem_map.1 ho
      exact .inr ⟨x, List.mem_of_find?_eq_some hx, rfl⟩

theorem State.frameOrders_ok (h : BookedOk s) (k : TreeId) : ∀ o ∈ s.frameOrders k, ∀ a ∈ o.addressees, tagOk a = true := by
  intro o ho a ha
  obtain ho | ho := List.mem_append.1 ho
  · obtain ⟨b, x, hb, rfl⟩ | ⟨x, hx, rfl⟩ := s.enrolmentPlace_cases k o (Option.mem_toList.1 ho)
    · rw [List.mem_singleton.1 ha]
      exact h k b hb
    · rw [List.mem_singleton.1 ha]
      exact State.treeEntries_tagOk hx
  · exact s.frameGeneral_ok k o ho a ha

/-! ## Homes, their capped marks aside -/

/-- The entry of a slot, its capped mark aside. -/
def State.home (s : State) (k : TreeId) (tag : Nat) : Option Entry := (s.entry k tag).map Entry.uncapped

/-- The entries of a tree, their capped marks aside. -/
def State.homes (s : State) (k : TreeId) : List (Nat × Entry) := (s.treeEntries k).map fun x => (x.1, x.2.uncapped)

theorem State.ordersSent_entry (h : BookedOk s) (htag : tagOk tag = true) (j : TreeId) :
    (s.ordersSent k).entry j tag =
      if j = k then (s.frameOrders k).foldl (fun x o => o.sentTo tag x) (s.entry j tag) else s.entry j tag :=
  sendOrders_entry (s.frameOrders_ok h k) htag s

theorem State.frameSent_home (k : TreeId) (r : PlanRecord) (j : TreeId) (tag : Nat) :
    (s.frameSent k r).home j tag = (s.ordersSent k).home j tag := (s.framePacked_counted k r).entry j tag

/-- A frame makes of each home of its tree what its orders make of it, and leaves every other home. -/
theorem State.beginFrame_home (h : BookedOk s) (htag : tagOk tag = true) (hr : (s.tree k).record (s.round + 1) = some r)
    (j : TreeId) : (s.beginFrame k).home j tag =
      if j = k then (s.frameOrders k).foldl (fun x o => o.sentTo tag x) (s.home j tag) else s.home j tag := by
  have hroster : (s.beginFrame k).home j tag = (s.frameSent k r).home j tag := by
    rw [State.beginFrame_of_record hr, State.quietTest_eq]
    rfl
  rw [hroster, State.frameSent_home, State.home, State.ordersSent_entry h htag, State.home]
  by_cases hj : j = k
  · rw [if_pos hj, if_pos hj, sentTo_foldl_uncapped]
  · rw [if_neg hj, if_neg hj]

theorem State.beginFrame_roster_of_none (h : (s.tree k).record (s.round + 1) = none) : (s.beginFrame k).roster = s.roster := by
  rw [State.beginFrame_of_none h]
  rfl

theorem State.beginFrame_homes (h : BookedOk s) (hj : j ≠ k) : (s.beginFrame k).homes j = s.homes j := by
  cases hr : (s.tree k).record (s.round + 1) with
  | none => rw [State.homes, State.treeEntries, State.beginFrame_roster_of_none hr]; rfl
  | some r =>
    have hroster : (s.beginFrame k).homes j = (s.frameSent k r).homes j := by
      rw [State.beginFrame_of_record hr, State.quietTest_eq]
      rfl
    have hcounted : (s.frameSent k r).homes j = (s.ordersSent k).homes j := (s.framePacked_counted k r).treeEntries j
    have horders : (s.ordersSent k).treeEntries j = s.treeEntries j :=
      State.treeEntries_foldl (s.frameOrders k) s fun o ho u => sendOrder_treeEntries_ne (s.frameOrders_ok h k o ho) hj u
    rw [hroster, hcounted, State.homes, horders, State.homes]

theorem BookedOk.beginFrame (h : BookedOk s) (k : TreeId) : BookedOk (s.beginFrame k) := by
  intro t
  by_cases ht : t = k
  · subst ht
    cases hr : (s.tree t).record (s.round + 1) with
    | none => rw [State.beginFrame_tree_of_none hr]; exact h t
    | some r => rw [State.beginFrame_tree hr]; exact nofun
  · rw [State.beginFrame_tree_ne ht]
    exact h t

/-- What the frames of the other trees leave of the homes of one, where the booked PROBEs name tags. -/
structure HomesKept (k : TreeId) (s s' : State) : Prop where
  tree : TreeKept k s s'
  booked : BookedOk s → BookedOk s'
  home : BookedOk s → ∀ tag, tagOk tag = true → s'.home k tag = s.home k tag
  homes : BookedOk s → s'.homes k = s.homes k

theorem HomesKept.refl (k : TreeId) (s : State) : HomesKept k s s := ⟨.refl k s, id, fun _ _ _ => rfl, fun _ => rfl⟩

theorem HomesKept.trans (h : HomesKept k s s') (h' : HomesKept k s' s'') : HomesKept k s s'' :=
  ⟨h.tree.trans h'.tree, fun hb => h'.booked (h.booked hb),
    fun hb tag ht => (h'.home (h.booked hb) tag ht).trans (h.home hb tag ht),
    fun hb => (h'.homes (h.booked hb)).trans (h.homes hb)⟩

theorem HomesKept.beginFrame (hj : j ≠ k) (s : State) : HomesKept k s (s.beginFrame j) where
  tree := .beginFrame hj s
  booked h := h.beginFrame j
  home h tag htag := by
    cases hr : (s.tree j).record (s.round + 1) with
    | none => exact congrArg (Option.map Entry.uncapped) (State.entry_of_roster (State.beginFrame_roster_of_none hr) k tag)
    | some r => rw [State.beginFrame_home h htag hr, if_neg (Ne.symm hj)]
  homes h := State.beginFrame_homes h (Ne.symm hj)

/-- The frames of a round, around that of one tree, home by home. -/
theorem homes_around (s : State) (k : TreeId) :
    ∃ u, HomesKept k s.attributed u ∧ HomesKept k (u.beginFrame k) s.framesBegun :=
  foldl_around k (HomesKept.refl k) HomesKept.trans (fun u _ hj => .beginFrame hj u) s.attributed

theorem State.beginRound_roster (s : State) : s.beginRound.roster = s.framesBegun.roster := by rw [s.beginRound_frame]

theorem State.beginRound_tree_buffer (s : State) (k : TreeId) : ∃ buffer,
    s.beginRound.tree k = { s.framesBegun.tree k with framer := { (s.framesBegun.tree k).framer with buffer := buffer } } :=
  s.framesBegun.takeHeldPacket_tree_buffer k

/-! ## The order places (R66, R67) -/

theorem candidates_uncapped (es : List (Nat × Entry)) : candidates (es.map fun x => (x.1, x.2.uncapped)) = candidates es := by
  have howing : ∀ kind, owing kind (es.map fun x => (x.1, x.2.uncapped)) = (owing kind es).map fun x => (x.1, x.2.uncapped) :=
    fun kind => List.filter_map
  simp only [candidates, howing, List.map_map]
  rfl

theorem State.frameGeneral_of_homes (h : s'.homes k = s.homes k) (he : s'.enrolmentPlace k = s.enrolmentPlace k) :
    s'.frameGeneral k = s.frameGeneral k := by
  have hc : candidates (s'.treeEntries k) = candidates (s.treeEntries k) := by
    rw [← candidates_uncapped, ← candidates_uncapped (s.treeEntries k)]
    exact congrArg candidates h
  rw [State.frameGeneral, State.frameGeneral, generalPlaces, generalPlaces, hc, he]

section
variable (s k)

theorem State.enrolmentPlace_of_booked {e : Entry} (hb : (s.tree k).engine.bookedProbe = some (s.round, tag))
    (he : s.entry k tag = some e) (ho : e.owed.probe = true) : s.enrolmentPlace k = some (.probe e.serial tag) := by
  simp only [State.enrolmentPlace, State.bookedProbe, hb, if_true, he, ho]

theorem State.enrolmentPlace_of_unbooked (hb : ∀ tag, (s.tree k).engine.bookedProbe ≠ some (s.round, tag)) :
    s.enrolmentPlace k =
      ((s.treeEntries k).find? fun x => x.2.state = .timed && x.2.owed.assign).map fun x => assignPlace x.1 x.2 := by
  have hnone : s.bookedProbe k = none := by
    unfold State.bookedProbe
    split
    · rename_i frame tag hbooked
      exact if_neg fun hf => hb tag (hbooked.trans (by rw [hf]))
    · rfl
  simp only [State.enrolmentPlace, hnone]

/-- The ASSIGN of the lowest TIMED tag that owes it does not depend on capped marks. -/
theorem State.assign_of_homes (h : s'.homes k = s.homes k) :
    (((s'.treeEntries k).find? fun x => x.2.state = .timed && x.2.owed.assign).map fun x => assignPlace x.1 x.2) =
      ((s.treeEntries k).find? fun x => x.2.state = .timed && x.2.owed.assign).map fun x => assignPlace x.1 x.2 := by
  have hhomes : ∀ u : State,
      (((u.treeEntries k).find? fun x => x.2.state = .timed && x.2.owed.assign).map fun x => assignPlace x.1 x.2) =
        ((u.homes k).find? fun x => x.2.state = .timed && x.2.owed.assign).map fun x => assignPlace x.1 x.2 := fun u => by
    rw [State.homes, List.find?_map, Option.map_map]
    rfl
  rw [hhomes, hhomes, h]

end

/-- The capped marks apart, the frame of a tree is that of the part before the round. -/
theorem frame_of_homesKept {u : State} (hu : HomesKept k s.attributed u) (hb : BookedOk s) :
    u.round = s.round + 1 ∧ (u.tree k).engine.bookedProbe = (s.tree k).engine.bookedProbe ∧ BookedOk u ∧
      u.homes k = s.homes k ∧ ∀ tag, tagOk tag = true → u.home k tag = s.home k tag := by
  have hbooked : BookedOk s.attributed := fun t => by
    rw [s.attributed_tree t]
    exact hb t
  have hroster := s.attributed_roster
  refine ⟨hu.tree.framed.round.trans s.attributed_round, ?_, hu.booked hbooked, (hu.homes hbooked).trans ?_, fun tag htag =>
    (hu.home hbooked tag htag).trans (congrArg (Option.map Entry.uncapped) (State.entry_of_roster hroster k tag))⟩
  · rw [hu.tree.tree, s.attributed_tree k]
    rfl
  · rw [State.homes, State.treeEntries, hroster]
    rfl

/-- Settles O23: the enrolment place by what is booked and owed, the general places by rank, and what each home becomes. -/
theorem orderPlacesFilled : Obligations.OrderPlacesFilled := by
  intro s hsound htags
  refine ⟨s.beginRound, rfl, fun k => ?_⟩
  intro es owing tags uncapped
  have hb : BookedOk s := fun t => (htags t).2.2.2.2
  obtain ⟨u, hbefore, hafter⟩ := homes_around s k
  obtain ⟨hround, hprobe, hbu, hhomes, hhome⟩ := frame_of_homesKept hbefore hb
  obtain ⟨-, hne, htwo⟩ := round_next_ne s.round
  have hrecord : (u.tree k).record (u.round + 1) = (s.tree k).record (s.round + 2) := by
    rw [hround, htwo, hbefore.tree.tree, s.attributed_tree k, Tree.roll_record _ hne]
  obtain ⟨buffer, hheld⟩ := s.beginRound_tree_buffer k
  rw [hafter.tree.tree] at hheld
  have hfinal : ∀ tag, tagOk tag = true → uncapped (s.beginRound.entry k tag) = (u.beginFrame k).home k tag := fun tag htag => by
    rw [← hafter.home (hbu.beginFrame k) tag htag]
    exact congrArg (Option.map Entry.uncapped) (State.entry_of_roster s.beginRound_roster k tag)
  refine ⟨fun hnone => ?_, fun hsome => ?_⟩
  · have hr : (s.tree k).record (s.round + 2) = none := List.find?_eq_none.2 fun r hr => by simpa using hnone r hr
    rw [State.beginFrame_tree_of_none (hrecord.trans hr)] at hheld
    refine ⟨by rw [hheld], fun tag htag => (hfinal tag htag).trans (Eq.trans ?_ (hhome tag htag))⟩
    exact congrArg (Option.map Entry.uncapped) (State.entry_of_roster (State.beginFrame_roster_of_none (hrecord.trans hr)) k tag)
  · obtain ⟨r, hr⟩ : ∃ r, (s.tree k).record (s.round + 2) = some r := by
      cases hr : (s.tree k).record (s.round + 2) with
      | some r => exact ⟨r, rfl⟩
      | none =>
        obtain ⟨r, hmem, hround⟩ := hsome
        exact absurd (decide_eq_true hround) (List.find?_eq_none.1 hr r hmem)
    have hur := hrecord.trans hr
    rw [State.beginFrame_tree hur] at hheld
    have hgeneral : u.frameGeneral k = ((candidates es).filter fun o => some o ≠ u.enrolmentPlace k).take 7 := by
      have hc : candidates (u.treeEntries k) = candidates es := by
        rw [← candidates_uncapped, ← candidates_uncapped es]
        exact congrArg candidates hhomes
      rw [State.frameGeneral, generalPlaces, hc]
    refine ⟨u.frameOf k r, by rw [hheld], by rw [hheld], fun tag e hbooked he ho => ?_, fun hno hnone => ?_,
      fun tag e g hno hmem hbody ho hlow => ?_, hgeneral, fun tag htag => ?_⟩
    · have htag : tagOk tag = true := hb k _ hbooked
      have hu := hhome tag htag
      rw [State.home, State.home, he] at hu
      obtain ⟨e', he', heq⟩ := Option.map_eq_some_iff.1 hu
      have hserial : e'.serial = e.serial := (congrArg Entry.serial heq :)
      have howed : e'.owed = e.owed := (congrArg Entry.owed heq :)
      rw [← hserial]
      exact State.enrolmentPlace_of_booked u k (by rw [hprobe, hround, hbooked]) he' (by rw [howed, ho])
    · have hfree : ∀ tag, (u.tree k).engine.bookedProbe ≠ some (u.round, tag) := fun tag => by
        rw [hprobe, hround]
        exact hno tag
      have hfind : es.find? (fun x => x.2.state = .timed && x.2.owed.assign) = none :=
        List.find?_eq_none.2 fun x hx => by simpa using hnone x hx
      exact (State.enrolmentPlace_of_unbooked u k hfree).trans ((State.assign_of_homes s k hhomes).trans
        (congrArg (Option.map _) hfind))
    · have hfree : ∀ tag, (u.tree k).engine.bookedProbe ≠ some (u.round, tag) := fun tag => by
        rw [hprobe, hround]
        exact hno tag
      have hstate : e.state = .timed := by simp only [Entry.state, hbody]
      have hdelay : e.delay = some g.e := by simp only [Entry.delay, hbody]
      have hfind : es.find? (fun x => x.2.state = .timed && x.2.owed.assign) = some (tag, e) := by
        obtain ⟨front, back, hes⟩ := List.append_of_mem hmem
        have hsorted := State.treeEntries_pairwise hsound.1.1 k
        refine List.find?_eq_some_iff_append.2 ⟨by simp [hstate, ho], front, back, hes, fun x hx => ?_⟩
        have hlt : x.1 < tag := by
          have hes' : s.treeEntries k = front ++ (tag, e) :: back := hes
          rw [hes', List.pairwise_append] at hsorted
          exact hsorted.2.2 x hx (tag, e) List.mem_cons_self
        have hmemx : x ∈ es := hes ▸ List.mem_append_left _ hx
        have hno : (decide (x.2.state = .timed) && x.2.owed.assign) = false :=
          Bool.eq_false_iff.2 fun hc => hlow x hmemx hlt (by simpa using hc)
        rw [hno]
        rfl
      refine (State.enrolmentPlace_of_unbooked u k hfree).trans ((State.assign_of_homes s k hhomes).trans
        ((congrArg (Option.map _) hfind).trans ?_))
      simp only [Option.map_some, assignPlace, hdelay, Option.getD_some]
    · have hok := u.frameOrders_ok hbu k
      rw [hfinal tag htag, State.beginFrame_home hbu htag hur, if_pos rfl, hhome tag htag, State.home, sentTo_foldl_uncapped]
      exact congrArg (Option.map Entry.uncapped) ((sendOrders_entry (k := k) (j := k) hok htag s).trans (if_pos rfl)).symm

end Sys2Proof.Machine
end

section
/-! PROOFS. The beginning of a round: the packets of each frame (O24), and the quiet condition of a hunt (O25). -/

namespace Sys2Proof.Machine

variable {s s' s'' : State} {k j : TreeId} {tag n : Nat} {r : PlanRecord}

/-! ## Packets and counts (R72, R151) -/

/-- What the frames of a round are begun on: booked PROBEs and packets that name tags, and byte counts in range. -/
structure FramesReady (s : State) : Prop where
  booked : BookedOk s
  packets : ∀ t : TreeId, ∀ p ∈ (s.tree t).framer.buffer, tagOk p.tag = true
  within : ∀ n m, Store.read n s.meters = some m → m.BandWithin s.band

theorem State.framePacked_spec (s : State) (k : TreeId) (r : PlanRecord) :
    ∃ taken, PacksOf k (120000 - headLength r.grants.length (s.enrolmentPlace k) (s.frameGeneral k)) []
      (s.tree k).framer.buffer (s.ordersSent k) (s.framePacked k r) taken := packPayload_spec _ _ _ _ _

theorem State.ordersSent_meters (s : State) (k : TreeId) : (s.ordersSent k).meters = s.meters ∧ (s.ordersSent k).band = s.band := by
  have h : HomesOnly s ((s.frameOrders k).foldl (State.sendOrder k) s) := HomesOnly.foldl .sendOrder (s.frameOrders k) s
  exact ⟨(congrArg State.meters h :), (congrArg State.band h :)⟩

theorem State.beginFrame_meters (h : (s.tree k).record (s.round + 1) = some r) :
    (s.beginFrame k).meters = (s.framePacked k r).state.meters := by
  rw [State.beginFrame_of_record h, State.quietTest_eq]
  rfl

theorem State.beginFrame_meters_of_none (h : (s.tree k).record (s.round + 1) = none) : (s.beginFrame k).meters = s.meters := by
  rw [State.beginFrame_of_none h]
  rfl

theorem Meters.packed_within {m : Meters} {band : BandId} (a b : Nat) : (m.packed band a b).BandWithin band := by
  simp only [Meters.BandWithin, Meters.packed, Quad.get_set_self]
  exact ⟨Nat.min_le_left _ _, Nat.min_le_left _ _⟩

theorem Meters.BandWithin.of_unmarked {m m' : Meters} {band : BandId} (h : m'.unmarked = m.unmarked) (hm : m.BandWithin band) :
    m'.BandWithin band :=
  ⟨(congrArg (fun x : Meters => x.down.get band) h).trans_le hm.1,
    (congrArg (fun x : Meters => x.withheld.get band) h).trans_le hm.2⟩

/-- The meters of any slot after the frame of a tree: the bytes of the packets that were taken from its buffer. -/
theorem State.beginFrame_meter (hready : FramesReady s) (hr : (s.tree k).record (s.round + 1) = some r) {taken : List DownPacket}
    {room : Nat} (h : PacksOf k room [] (s.tree k).framer.buffer (s.ordersSent k) (s.framePacked k r) taken) (n : Nat) :
    (Store.read n (s.beginFrame k).meters).map Meters.unmarked = (Store.read n s.meters).map fun m =>
      (m.packed s.band ((s.ordersSent k).takenBytes k taken .active n) ((s.ordersSent k).takenBytes k taken .fenced n)).unmarked := by
  obtain ⟨hmeters, hband⟩ := s.ordersSent_meters k
  have hread := h.meters n (by rw [hmeters, hband]; exact hready.within n)
  rw [hmeters, hband] at hread
  rw [State.beginFrame_meters hr]
  exact hread

theorem FramesReady.beginFrame (h : FramesReady s) (k : TreeId) : FramesReady (s.beginFrame k) := by
  have hband : (s.beginFrame k).band = s.band := (congrArg State.band (Framed.beginFrame s k).frame :)
  cases hr : (s.tree k).record (s.round + 1) with
  | none =>
    refine ⟨h.booked.beginFrame k, fun t p hp => ?_, fun n m hm => ?_⟩
    · by_cases ht : t = k
      · subst ht
        rw [State.beginFrame_tree_of_none hr] at hp
        exact h.packets t p hp
      · rw [State.beginFrame_tree_ne ht] at hp
        exact h.packets t p hp
    · rw [State.beginFrame_meters_of_none hr] at hm
      exact hband ▸ h.within n m hm
  | some r =>
    obtain ⟨taken, hpacked⟩ := s.framePacked_spec k r
    refine ⟨h.booked.beginFrame k, fun t p hp => ?_, fun n m hm => ?_⟩
    · by_cases ht : t = k
      · subst ht
        rw [State.beginFrame_tree hr] at hp
        exact h.packets t p (hpacked.split ▸ List.mem_append_right taken hp)
      · rw [State.beginFrame_tree_ne ht] at hp
        exact h.packets t p hp
    · have hread := State.beginFrame_meter h hr hpacked n
      rw [hm] at hread
      obtain ⟨m0, -, hm0⟩ := Option.map_eq_some_iff.1 hread.symm
      rw [hband]
      exact .of_unmarked hm0.symm (Meters.packed_within _ _)

/-- No packet of one tree counts for a slot of another. -/
theorem takenBytes_ne (hj : j ≠ k) (htag : tagOk tag = true) {taken : List DownPacket} (h : ∀ p ∈ taken, tagOk p.tag = true)
    (state : EntryState) : s.takenBytes j taken state (slotOf k tag) = 0 := by
  have hnone : (taken.filter fun p => slotOf j p.tag = slotOf k tag ∧ s.slotState j p.tag = state) = [] :=
    List.filter_eq_nil_iff.2 fun p hp hc => slotOf_ne htag (h p hp) (.inl hj) (of_decide_eq_true hc).1
  rw [State.takenBytes, hnone]
  rfl

/-- What the frames of the other trees leave of the homes and meters of one. -/
structure MetersKept (k : TreeId) (s s' : State) : Prop where
  homes : HomesKept k s s'
  ready : FramesReady s → FramesReady s'
  meters : FramesReady s → ∀ tag, tagOk tag = true →
    (s'.meterOf k tag).map Meters.unmarked = (s.meterOf k tag).map Meters.unmarked

theorem MetersKept.refl (k : TreeId) (s : State) : MetersKept k s s := ⟨.refl k s, id, fun _ _ _ => rfl⟩

theorem MetersKept.trans (h : MetersKept k s s') (h' : MetersKept k s' s'') : MetersKept k s s'' :=
  ⟨h.homes.trans h'.homes, fun hr => h'.ready (h.ready hr),
    fun hr tag ht => (h'.meters (h.ready hr) tag ht).trans (h.meters hr tag ht)⟩

theorem MetersKept.beginFrame (hj : j ≠ k) (s : State) : MetersKept k s (s.beginFrame j) where
  homes := .beginFrame hj s
  ready h := h.beginFrame j
  meters h tag htag := by
    cases hr : (s.tree j).record (s.round + 1) with
    | none => rw [State.meterOf, State.beginFrame_meters_of_none hr]; rfl
    | some r =>
      obtain ⟨taken, hpacked⟩ := s.framePacked_spec j r
      have hok : ∀ p ∈ taken, tagOk p.tag = true := fun p hp =>
        h.packets j p (hpacked.split ▸ List.mem_append_left _ hp)
      refine (State.beginFrame_meter h hr hpacked (slotOf k tag)).trans ?_
      rw [takenBytes_ne hj htag hok, takenBytes_ne hj htag hok]
      cases hm : Store.read (slotOf k tag) s.meters with
      | none => rw [State.meterOf, hm]; rfl
      | some m =>
        rw [State.meterOf, hm, Option.map_some, Option.map_some, Meters.packed_zero (h.within _ m hm)]

theorem meters_around (s : State) (k : TreeId) :
    ∃ u, MetersKept k s.attributed u ∧ MetersKept k (u.beginFrame k) s.framesBegun :=
  foldl_around k (MetersKept.refl k) MetersKept.trans (fun u _ hj => .beginFrame hj u) s.attributed

/-! ## The packets of a frame (R72, R151) -/

theorem State.slotState_iff {state : EntryState} (hv : state ≠ .vacant) :
    s.slotState k tag = state ↔ ∃ e, s.entry k tag = some e ∧ e.state = state := by
  unfold State.slotState
  cases s.entry k tag with
  | none => simpa using hv.symm
  | some e => simp

/-- Orders that count as sent leave a home in service, and a fenced one, as what it is. -/
theorem State.ordersSent_slotState (h : BookedOk s) (htag : tagOk tag = true) {state : EntryState} (hv : state ≠ .vacant)
    (hl : state ≠ .leaving) : (s.ordersSent k).slotState k tag = state ↔ s.slotState k tag = state := by
  rw [State.slotState_iff hv, State.slotState_iff hv, State.ordersSent_entry h htag, if_pos rfl]
  exact sentTo_foldl_state _ tag _ hl

/-- The meters of a slot once its round is attributed: the byte counts as before, and what saturated. -/
theorem State.attributed_meter (s : State) (k : TreeId) (htag : tagOk tag = true) {m : Meters} (hm : s.meterOf k tag = some m) :
    ∃ m', s.attributed.meterOf k tag = some m' ∧ m'.down = m.down ∧ m'.withheld = m.withheld ∧
      (m'.saturated = true ↔ m.saturated = true ∨ roundSaturates s k tag m) := by
  obtain ⟨hnone, hsome⟩ := s.attributed_meterOf k htag
  cases hr : (s.tree k).record (s.round + 1) with
  | none =>
    refine ⟨m, (hnone hr).trans hm, rfl, rfl, ⟨.inl, fun h => h.resolve_right fun ⟨r, hr', _⟩ => ?_⟩⟩
    exact absurd (hr.symm.trans hr') nofun
  | some r =>
    refine ⟨m.attributed r tag (s.entry k tag), (hsome r hr).trans (congrArg _ hm), ?_, ?_, ?_⟩
    · rw [Meters.attributed_eq]
    · rw [Meters.attributed_eq]
    · rw [Meters.attributed_saturated]
      refine or_congr_right ⟨fun h => ⟨r, hr, h⟩, fun ⟨r', hr', h⟩ => ?_⟩
      obtain rfl : r = r' := Option.some.inj (hr.symm.trans hr')
      exact h

theorem Meters.within_of_inRange {m : Meters} (h : m.inRange = true) (band : BandId) : m.BandWithin band := by
  simp only [Meters.inRange, Bool.and_eq_true, List.all_append, Quad.toList, List.all_cons, decide_eq_true_eq] at h
  obtain ⟨⟨⟨⟨⟨⟨-, hdown⟩, hwithheld⟩, -⟩, -⟩, -⟩, -⟩ := h
  obtain ⟨h0, h1, h2, h3, -⟩ := hdown
  obtain ⟨w0, w1, w2, w3, -⟩ := hwithheld
  constructor <;> fin_cases band <;> assumption

/-- Attribution touches no byte count of any slot. -/
theorem State.attributeRound_bytes (s : State) (k : TreeId) :
    ∀ x ∈ (s.attributeRound k).meters, ∃ y ∈ s.meters, x.2.down = y.2.down ∧ x.2.withheld = y.2.withheld := by
  unfold State.attributeRound
  split
  · exact fun x hx => ⟨x, hx, rfl, rfl⟩
  · intro x hx
    obtain ⟨y, hy, rfl⟩ := List.mem_map.1 hx
    refine ⟨y, hy, ?_⟩
    have hround : ∀ mark, (y.2.addRound mark).down = y.2.down ∧ (y.2.addRound mark).withheld = y.2.withheld := fun mark => by
      rw [Meters.addRound_eq]
      exact ⟨rfl, rfl⟩
    split
    · simp only
      split
      · rw [Meters.addGranted_eq]
        exact hround _
      · exact hround _
    · exact ⟨rfl, rfl⟩

theorem State.attributed_bytes (s : State) :
    ∀ x ∈ s.attributed.meters, ∃ y ∈ s.meters, x.2.down = y.2.down ∧ x.2.withheld = y.2.withheld := by
  have hfold : ∀ (l : List TreeId) (u : State), ∀ x ∈ (l.foldl State.attributeRound u).meters, ∃ y ∈ u.meters,
      x.2.down = y.2.down ∧ x.2.withheld = y.2.withheld := by
    intro l
    induction l with
    | nil => exact fun u x hx => ⟨x, hx, rfl, rfl⟩
    | cons j l ih =>
      intro u x hx
      obtain ⟨y, hy, hd, hw⟩ := ih (u.attributeRound j) x hx
      obtain ⟨z, hz, hd', hw'⟩ := u.attributeRound_bytes j y hy
      exact ⟨z, hz, hd.trans hd', hw.trans hw'⟩
  exact hfold allFour s.rolled

theorem framesReady_attributed (hb : BuffersWithin s) (hm : MetersInRange s) (ht : TagsInRange s) : FramesReady s.attributed where
  booked t := by
    rw [s.attributed_tree t]
    exact (ht t).2.2.2.2
  packets t p hp := by
    rw [s.attributed_tree t] at hp
    have hfits := (hb.2.1 t).2 p hp
    simp only [DownPacket.fits, Bool.and_eq_true] at hfits
    exact hfits.1.1
  within n m h := by
    obtain ⟨y, hy, hd, hw⟩ := s.attributed_bytes (n, m) (Store.mem_of_read h)
    have hband : s.attributed.band = s.band := (congrArg State.band s.attributed_frame :)
    have hin := Meters.within_of_inRange (hm.1 y hy) s.band
    rw [hband]
    exact ⟨(congrArg (fun q : Quad Nat => q.get s.band) hd).trans_le hin.1,
      (congrArg (fun q : Quad Nat => q.get s.band) hw).trans_le hin.2⟩

theorem State.beginRound_held (s : State) : s.beginRound = s.framesBegun.takeHeldPacket := rfl

theorem Framed.heldPacket (h : Framed s s') : s'.heldPacket = s.heldPacket := (congrArg State.heldPacket h.frame :)

theorem State.framed_framesBegun (s : State) : Framed s.attributed s.framesBegun := .frames s.attributed

theorem State.beginRound_of_none (s : State) (h : s.heldPacket = none) : s.beginRound = s.framesBegun := by
  have hattributed : s.attributed.heldPacket = s.heldPacket := by
    rw [s.attributed_frame]
    rfl
  rw [s.beginRound_held]
  exact State.takeHeldPacket_of_none (s.framed_framesBegun.heldPacket.trans (hattributed.trans h))

/-- Settles O24: what packing takes from the buffer, and what each slot's meters show of it. -/
theorem framePacked : Obligations.FramePacked := by
  intro s hbuffers hsound hmeters htags hheld
  refine ⟨s.beginRound, rfl, fun k => ?_⟩
  intro buffer bytes
  have hready := framesReady_attributed hbuffers hmeters htags
  obtain ⟨u, hbefore, hafter⟩ := meters_around s k
  have hb : BookedOk s := fun t => (htags t).2.2.2.2
  obtain ⟨hround, -, hbu, -, hhome⟩ := frame_of_homesKept hbefore.homes hb
  obtain ⟨-, hne, htwo⟩ := round_next_ne s.round
  have hreadyU := hbefore.ready hready
  have htree : u.tree k = (s.tree k).roll s.round := hbefore.homes.tree.tree.trans (s.attributed_tree k)
  have hrecord : (u.tree k).record (u.round + 1) = (s.tree k).record (s.round + 2) := by
    rw [hround, htwo, htree, Tree.roll_record _ hne]
  have hbegun := s.beginRound_of_none hheld
  rw [hbegun]
  have hfinal := hafter.homes.tree.tree
  have hmeter : ∀ tag, tagOk tag = true →
      (s.framesBegun.meterOf k tag).map Meters.unmarked = ((u.beginFrame k).meterOf k tag).map Meters.unmarked := fun tag htag =>
    hafter.meters (hreadyU.beginFrame k) tag htag
  have hmeterU : ∀ tag, tagOk tag = true → ∀ m, s.meterOf k tag = some m → ∃ m', u.meterOf k tag = some m' ∧
      m'.down = m.down ∧ m'.withheld = m.withheld ∧
      (m'.saturated = true ↔ m.saturated = true ∨ roundSaturates s k tag m) := by
    intro tag htag m hm
    obtain ⟨m', hm', hd, hw, hsat⟩ := s.attributed_meter k htag hm
    have hkept := hbefore.meters hready tag htag
    rw [hm'] at hkept
    obtain ⟨m'', hm'', heq⟩ := Option.map_eq_some_iff.1 hkept
    refine ⟨m'', hm'', (congrArg Meters.down heq :).trans hd, (congrArg Meters.withheld heq :).trans hw, ?_⟩
    have hsame : m''.saturated = m'.saturated := (congrArg Meters.saturated heq :)
    rw [hsame]
    exact hsat
  refine ⟨fun hnone => ?_, fun hsome => ?_⟩
  · have hr : (s.tree k).record (s.round + 2) = none := List.find?_eq_none.2 fun r hr => by simpa using hnone r hr
    have hur := hrecord.trans hr
    refine ⟨?_, fun tag htag m hm => ?_⟩
    · rw [hfinal, State.beginFrame_tree_of_none hur, htree]
      rfl
    · obtain ⟨m', hm', hd, hw, hsat⟩ := hmeterU tag htag m hm
      have hsameMeters : (u.beginFrame k).meterOf k tag = u.meterOf k tag :=
        congrArg (Store.read (slotOf k tag)) (State.beginFrame_meters_of_none hur)
      have hread := hmeter tag htag
      rw [hsameMeters, hm'] at hread
      obtain ⟨m'', hm'', heq⟩ := Option.map_eq_some_iff.1 hread
      refine ⟨m'', hm'', (congrArg Meters.down heq :).trans hd, (congrArg Meters.withheld heq :).trans hw, ?_⟩
      have hsame : m''.saturated = m'.saturated := (congrArg Meters.saturated heq :)
      rw [hsame]
      exact hsat
  · obtain ⟨r, hr⟩ : ∃ r, (s.tree k).record (s.round + 2) = some r := by
      cases hr : (s.tree k).record (s.round + 2) with
      | some r => exact ⟨r, rfl⟩
      | none =>
        obtain ⟨r, hmem, hround⟩ := hsome
        exact absurd (decide_eq_true hround) (List.find?_eq_none.1 hr r hmem)
    have hur := hrecord.trans hr
    obtain ⟨taken, hpacked⟩ := u.framePacked_spec k r
    have hsplit : buffer = taken ++ (u.framePacked k r).left := by
      have h := hpacked.split
      rwa [htree] at h
    have hok : ∀ p ∈ buffer, tagOk p.tag = true := fun p hp => hreadyU.packets k p (by rw [htree]; exact hp)
    have hstate : ∀ p ∈ buffer, ∀ state : EntryState, state ≠ .vacant → state ≠ .leaving →
        ((u.ordersSent k).slotState k p.tag = state ↔ s.slotState k p.tag = state) := fun p hp state hv hl => by
      rw [State.ordersSent_slotState hbu (hok p hp) hv hl, State.slotState_of_uncapped (hhome p.tag (hok p hp))]
    have htakenIn : ∀ p ∈ taken, p ∈ buffer := fun p hp => hsplit ▸ List.mem_append_left _ hp
    have hactive : (taken.filter fun p => (u.ordersSent k).slotState k p.tag = .active) =
        taken.filter fun p => s.slotState k p.tag = .active := List.filter_congr fun p hp =>
      decide_eq_decide.2 (hstate p (htakenIn p hp) .active (by decide) (by decide))
    have hpayload := hpacked.sent
    have hfits := hpacked.fits
    have hstopped := hpacked.stopped
    rw [hactive] at hpayload hfits hstopped
    rw [List.nil_append] at hpayload
    refine ⟨u.frameOf k r, taken, (u.framePacked k r).left, ?_, hsplit, hpayload, ?_⟩
    · rw [hfinal, State.beginFrame_tree hur]
    · intro room
      have hbytes : bytes (u.frameOf k r).payload = packetBytes (taken.filter fun p => s.slotState k p.tag = .active) :=
        congrArg bytes hpayload
      rw [hbytes]
      refine ⟨hfits, fun p rest hl => ?_, fun tag htag m hm => ?_⟩
      · have hmem : p ∈ buffer := hsplit ▸ List.mem_append_right _ (hl ▸ List.mem_cons_self)
        obtain ⟨hs, hroom⟩ := hstopped p rest hl
        exact ⟨(hstate p hmem .active (by decide) (by decide)).1 hs, hroom⟩
      · obtain ⟨m', hm', hd, hw, hsat⟩ := hmeterU tag htag m hm
        have hslot : ∀ p ∈ taken, (slotOf k p.tag = slotOf k tag ↔ p.tag = tag) := fun p hp =>
          ⟨fun h => (slotOf_inj (hok p (htakenIn p hp)) htag h).2, fun h => congrArg (slotOf k) h⟩
        have hsent : (u.ordersSent k).takenBytes k taken .active (slotOf k tag) =
            bytes ((u.frameOf k r).payload.filter fun p => p.tag = tag) := by
          have hfilter : ((u.frameOf k r).payload.filter fun p => p.tag = tag) = taken.filter fun p =>
              slotOf k p.tag = slotOf k tag ∧ (u.ordersSent k).slotState k p.tag = .active := by
            refine (congrArg (List.filter fun p => p.tag = tag) hpayload).trans (List.filter_filter.trans
              (List.filter_congr fun p hp => ?_))
            rw [← Bool.decide_and]
            exact decide_eq_decide.2
              (and_congr (hslot p hp).symm (hstate p (htakenIn p hp) .active (by decide) (by decide)).symm)
          rw [hfilter]
          rfl
        have hwithheld : (u.ordersSent k).takenBytes k taken .fenced (slotOf k tag) =
            bytes (taken.filter fun p => p.tag = tag ∧ s.slotState k p.tag = .fenced) := by
          refine congrArg bytes (List.filter_congr fun p hp => ?_)
          exact decide_eq_decide.2 (and_congr (hslot p hp) (hstate p (htakenIn p hp) .fenced (by decide) (by decide)))
        have hband : u.band = s.band := by
          have h1 : u.band = s.attributed.band := (congrArg State.band hbefore.homes.tree.framed.frame :)
          rw [h1, s.attributed_frame]
          rfl
        have hread := (hmeter tag htag).trans (State.beginFrame_meter hreadyU hur hpacked (slotOf k tag))
        have hold : Store.read (slotOf k tag) u.meters = some m' := hm'
        rw [hold, hsent, hwithheld, hband, Option.map_some] at hread
        obtain ⟨m'', hm'', heq⟩ := Option.map_eq_some_iff.1 hread
        refine ⟨m'', hm'', ?_, ?_, ?_⟩
        · exact (congrArg Meters.down heq).trans (by rw [← hd]; rfl)
        · exact (congrArg Meters.withheld heq).trans (by rw [← hw]; rfl)
        · have hsame : m''.saturated = _ := (congrArg Meters.saturated heq :)
          rw [hsame, ← hd, ← hw]
          simp only [Meters.unmarked, Meters.packed, Bool.or_eq_true, decide_eq_true_eq, hsat, or_assoc]

end Sys2Proof.Machine
end

section
/-! PROOFS. The beginning of a round: the quiet condition of a hunt's step (O25). -/

namespace Sys2Proof.Machine

variable {s s' s'' : State} {k j : TreeId} {tag n : Nat} {r : PlanRecord}

/-! ## What the quiet condition looks at (R132)

The hushed mark, an owed HUSH and an owed FENCE of each entry. The frames of other trees leave all three, whatever tag a booked
PROBE names. -/

/-- What the quiet condition sees of a tree. -/
def State.quietView (s : State) (k : TreeId) : List (Nat × Bool × Bool × Bool) :=
  (s.treeEntries k).map fun x => (x.1, x.2.hushed, x.2.owed.hush, x.2.owed.fence)

/-- The quiet condition on what it sees. -/
def quietOn (view : List (Nat × Bool × Bool × Bool)) : HuntPhase → Bool
  | .search group =>
    (group.all fun g => view.any fun x => x.1 = g) &&
      view.all fun x => if x.1 ∈ group then x.2.1 && !x.2.2.1 else !x.2.1
  | .trial c => view.all fun x => !x.2.1 && (x.1 ≠ c || !x.2.2.2)
  | .allQuiet c quiet =>
    (quiet.all fun g => view.any fun x => x.1 = g) &&
      view.all fun x => (if x.1 ∈ quiet then x.2.1 && !x.2.2.1 else !x.2.1) && (x.1 ≠ c || !x.2.2.2)

theorem quietHolds_eq (s : State) (k : TreeId) (phase : HuntPhase) :
    quietHolds (s.treeEntries k) phase = quietOn (s.quietView k) phase := by
  cases phase <;> simp only [quietHolds, quietOn, State.quietView, List.all_map, List.any_map] <;> rfl

theorem State.treeEntries_modEntry_view {a : Nat} {f : Entry → Entry} {β : Type} {view : Nat × Entry → β}
    (h : ∀ tag e, view (tag, f e) = view (tag, e)) (s : State) :
    ((s.modEntry j a f).treeEntries k).map view = (s.treeEntries k).map view := by
  unfold State.treeEntries State.modEntry Store.modify
  rw [List.map_filterMap, List.map_filterMap, List.filterMap_map]
  refine List.filterMap_congr fun x _ => ?_
  simp only [Function.comp]
  by_cases hx : x.1 = slotOf j a
  · by_cases ht : slotTree x.1 = k.val <;> simp [hx, h]
  · simp only [if_neg hx]

theorem sendOrder_quietView (hj : k ≠ j) {o : OrderPlace}
    (ho : (∀ a ∈ o.addressees, tagOk a = true) ∨ ∃ x a, o = .probe x a) (s : State) :
    (s.sendOrder j o).quietView k = s.quietView k := by
  obtain ho | ⟨x, a, rfl⟩ := ho
  · rw [State.quietView, sendOrder_treeEntries_ne ho hj, State.quietView]
  · exact State.treeEntries_modEntry_view (f := Entry.sent .probe) (fun _ _ => rfl) s

theorem State.quietView_of_homes (h : s'.homes k = s.homes k) : s'.quietView k = s.quietView k := by
  have hhomes : ∀ u : State, u.quietView k = (u.homes k).map fun x => (x.1, x.2.hushed, x.2.owed.hush, x.2.owed.fence) :=
    fun u => by
      rw [State.homes, List.map_map]
      rfl
  rw [hhomes, hhomes, h]

/-- Every order of a frame addresses tags, but for a booked PROBE. -/
theorem State.frameOrders_cases (s : State) (k : TreeId) : ∀ o ∈ s.frameOrders k,
    (∀ a ∈ o.addressees, tagOk a = true) ∨ ∃ x a, o = .probe x a := by
  intro o ho
  obtain ho | ho := List.mem_append.1 ho
  · obtain ⟨b, x, -, rfl⟩ | ⟨x, hx, rfl⟩ := s.enrolmentPlace_cases k o (Option.mem_toList.1 ho)
    · exact .inr ⟨_, _, rfl⟩
    · refine .inl fun a ha => ?_
      rw [List.mem_singleton.1 ha]
      exact State.treeEntries_tagOk hx
  · exact .inl (s.frameGeneral_ok k o ho)

theorem sendOrders_quietView (hj : k ≠ j) (orders : List OrderPlace)
    (ho : ∀ o ∈ orders, (∀ a ∈ o.addressees, tagOk a = true) ∨ ∃ x a, o = .probe x a) (s : State) :
    (orders.foldl (State.sendOrder j) s).quietView k = s.quietView k := by
  induction orders generalizing s with
  | nil => rfl
  | cons o rest ih =>
    obtain ⟨ho, hrest⟩ := List.forall_mem_cons.1 ho
    rw [List.foldl_cons, ih hrest, sendOrder_quietView hj ho]

theorem State.beginFrame_quietView (hj : k ≠ j) (s : State) : (s.beginFrame j).quietView k = s.quietView k := by
  cases hr : (s.tree j).record (s.round + 1) with
  | none => rw [State.quietView, State.treeEntries, State.beginFrame_roster_of_none hr]; rfl
  | some r =>
    have hroster : (s.beginFrame j).quietView k = (s.frameSent j r).quietView k := by
      rw [State.beginFrame_of_record hr, State.quietTest_eq]
      rfl
    have hcounted : (s.frameSent j r).homes k = (s.ordersSent j).homes k := (s.framePacked_counted j r).treeEntries k
    have horders : (s.ordersSent j).quietView k = s.quietView k :=
      sendOrders_quietView hj (s.frameOrders j) (s.frameOrders_cases j) s
    rw [hroster, State.quietView_of_homes hcounted, horders]

/-- What the frames of the other trees leave of a tree and of what the quiet condition sees. -/
structure ViewKept (k : TreeId) (s s' : State) : Prop where
  tree : TreeKept k s s'
  view : s'.quietView k = s.quietView k

theorem view_around (s : State) (k : TreeId) :
    ∃ u, ViewKept k s.attributed u ∧ ViewKept k (u.beginFrame k) s.framesBegun :=
  foldl_around k (fun u => ⟨.refl k u, rfl⟩) (fun h h' => ⟨h.tree.trans h'.tree, h'.view.trans h.view⟩)
    (fun u _ hj => ⟨.beginFrame hj u, State.beginFrame_quietView (Ne.symm hj) u⟩) s.attributed

/-- A home is as quiet as a group wants it. -/
theorem quiet_iff (tags : List Nat) (tag : Nat) (e : Entry) :
    (if tag ∈ tags then e.hushed && !e.owed.hush else !e.hushed) = true ↔
      (tag ∈ tags → e.hushed = true ∧ e.owed.hush = false) ∧ (tag ∉ tags → e.hushed = false) := by
  by_cases h : tag ∈ tags <;> simp [h]

theorem unfenced_iff (c tag : Nat) (e : Entry) :
    (decide (tag ≠ c) || !e.owed.fence) = true ↔ (tag = c → e.owed.fence = false) := by
  by_cases h : tag = c <;> simp [h]

theorem allThere_iff (tags : List Nat) (es : List (Nat × Entry)) :
    (tags.all fun g => es.any fun x => decide (x.1 = g)) = true ↔ ∀ g ∈ tags, ∃ e : Entry, (g, e) ∈ es := by
  simp

theorem quietHolds_search (es : List (Nat × Entry)) (group : List Nat) : quietHolds es (.search group) = true ↔
    (∀ g ∈ group, ∃ e : Entry, (g, e) ∈ es) ∧ ∀ x ∈ es,
      (x.1 ∈ group → x.2.hushed = true ∧ x.2.owed.hush = false) ∧ (x.1 ∉ group → x.2.hushed = false) := by
  simp only [quietHolds, Bool.and_eq_true, allThere_iff, List.all_eq_true (l := es), quiet_iff]

theorem quietHolds_trial (es : List (Nat × Entry)) (c : Nat) : quietHolds es (.trial c) = true ↔
    ∀ x ∈ es, x.2.hushed = false ∧ (x.1 = c → x.2.owed.fence = false) := by
  simp only [quietHolds, List.all_eq_true, Bool.and_eq_true, Bool.not_eq_true', unfenced_iff]

theorem quietHolds_allQuiet (es : List (Nat × Entry)) (c : Nat) (set : List Nat) : quietHolds es (.allQuiet c set) = true ↔
    (∀ g ∈ set, ∃ e : Entry, (g, e) ∈ es) ∧ ∀ x ∈ es,
      ((x.1 ∈ set → x.2.hushed = true ∧ x.2.owed.hush = false) ∧ (x.1 ∉ set → x.2.hushed = false)) ∧
        (x.1 = c → x.2.owed.fence = false) := by
  simp only [quietHolds, Bool.and_eq_true, allThere_iff, List.all_eq_true (l := es), quiet_iff, unfenced_iff]

theorem State.frameSent_round (s : State) (k : TreeId) (r : PlanRecord) : (s.frameSent k r).round = s.round :=
  (congrArg State.round (s.framePacked_counted k r).frame).trans
    (congrArg State.round (HomesOnly.foldl .sendOrder (s.frameOrders k) s) :)

/-- Settles O25: the condition is tested on the homes as this tree's frame leaves them, and the frames after it change nothing
of what it sees. -/
theorem quietConditionTested : Obligations.QuietConditionTested := by
  intro s k h hs
  refine ⟨s.beginRound, rfl, ?_⟩
  intro sends quiet holds
  obtain ⟨u, hbefore, hafter⟩ := view_around s k
  obtain ⟨-, hne, htwo⟩ := round_next_ne s.round
  have hround : u.round = s.round + 1 := hbefore.tree.framed.round.trans s.attributed_round
  have htree : u.tree k = (s.tree k).roll s.round := hbefore.tree.tree.trans (s.attributed_tree k)
  have hrecord : (u.tree k).record (u.round + 1) = (s.tree k).record (s.round + 2) := by
    rw [hround, htwo, htree, Tree.roll_record _ hne]
  obtain ⟨buffer, hheld⟩ := s.beginRound_tree_buffer k
  rw [hafter.tree.tree] at hheld
  have hview : s.beginRound.quietView k = (u.beginFrame k).quietView k := by
    rw [← hafter.view, State.quietView, State.treeEntries, s.beginRound_roster]
    rfl
  have hholds : quietHolds (s.beginRound.treeEntries k) h.phase = true ↔ holds := by
    simp only [holds, quiet]
    cases h.phase with
    | search group => simp only [quietHolds_search]
    | trial c => simp only [quietHolds_trial]
    | allQuiet c set => simp only [quietHolds_allQuiet]
  cases hr : (s.tree k).record (s.round + 2) with
  | none =>
    have hsends : ¬ sends := fun ⟨r, hmem, hround⟩ => absurd (decide_eq_true hround) (List.find?_eq_none.1 hr r hmem)
    rw [State.beginFrame_tree_of_none (hrecord.trans hr)] at hheld
    have hkept : (s.beginRound.tree k).light.suspicion = .hunt h := by rw [hheld]; exact (congrArg (·.light.suspicion) htree).trans hs
    exact ⟨fun h => absurd h hsends, fun _ => hkept⟩
  | some r =>
    have hsends : sends := ⟨r, List.mem_of_find?_eq_some hr, by simpa using List.find?_some hr⟩
    rw [State.beginFrame_tree (hrecord.trans hr)] at hheld
    have hsent : (u.frameSent k r).quietView k = (u.beginFrame k).quietView k := by
      rw [State.beginFrame_of_record (hrecord.trans hr), State.quietTest_eq]
      rfl
    have htest : quietHolds ((u.frameSent k r).treeEntries k) h.phase = true ↔ holds := by
      rw [quietHolds_eq, hsent, ← hview, ← quietHolds_eq, hholds]
    have hhunt : ((u.frameSent k r).tree k).light.suspicion = .hunt h := by
      rw [State.frameSent, State.modFramer, State.modTree, State.setTree_tree, (u.framePacked_counted k r).tree, State.ordersSent_tree]
      exact (congrArg (·.light.suspicion) htree).trans hs
    have hsentRound : (u.frameSent k r).round + 1 = s.round + 2 := by
      rw [← htwo, ← hround]
      exact congrArg (· + 1) (u.frameSent_round k r)
    have hfinal : (s.beginRound.tree k).light.suspicion = (u.frameSent k r).quietSuspicion k := by rw [hheld]
    rw [hfinal]
    simp only [State.quietSuspicion, hhunt, hsentRound]
    refine ⟨fun _ he hq => if_pos ⟨he, htest.2 hq⟩, fun hnot => if_neg fun ⟨he, hq⟩ => ?_⟩
    obtain hno | hno | hno := hnot
    exacts [hno hsends, hno he, hno (htest.1 hq)]

end Sys2Proof.Machine
end

section
/-! PROOFS. The stages of a build as walks over their candidates (O40). -/

namespace Sys2Proof.Machine

variable {H : Nat} {b : BuildSetting}

/-! ## A stage is a walk -/

/-- What a stage spent on one candidate, by what it made of it (R96, R102). -/
def Cand.cost (overhead : Nat) (x y : Cand) : Nat :=
  if y.payload = x.payload then 0 else (y.payload - x.payload) + (if x.payload = 0 then overhead else 0)

/-- The overhead of a burst, due where a candidate has no payload yet. -/
def Cand.opening (overhead : Nat) (x : Cand) : Nat := if x.payload = 0 then overhead else 0

theorem Cand.cost_self (x : Cand) : x.cost H x = 0 := if_pos rfl

theorem Cand.cost_of_gain {x y : Cand} {g : Nat} (hg : 0 < g) (h : y.payload = x.payload + g) :
    x.cost H y = g + x.opening H := by
  rw [Cand.cost, h, if_neg (by omega), Nat.add_sub_cancel_left, Cand.opening]

theorem spent_cons (x y : Cand) (xs ys : List Cand) : spent H (x :: xs) (y :: ys) = x.cost H y + spent H xs ys := by
  simp only [spent, List.zip_cons_cons, List.map_cons, List.sum_cons, Cand.cost]

/-- A stage passes its first candidate over, or gives it what the rule gives, within what is left. -/
def ServesBy (H : Nat) (rule : Nat → Cand → Cand) (stage : Nat → List Cand → List Cand × Nat) (left : Nat) (x : Cand)
    (rest : List Cand) : Prop :=
  (rule left x = x ∧ stage left (x :: rest) = (x :: (stage left rest).1, (stage left rest).2)) ∨
  ∃ g, 0 < g ∧ g + x.opening H ≤ left ∧ (rule left x).payload = x.payload + g ∧
    stage left (x :: rest) =
      (rule left x :: (stage (left - (g + x.opening H)) rest).1, (stage (left - (g + x.opening H)) rest).2)

theorem ServesBy.cost {rule : Nat → Cand → Cand} {stage : Nat → List Cand → List Cand × Nat} {left : Nat} {x : Cand}
    {rest : List Cand} (h : ServesBy H rule stage left x rest) :
    x.cost H (rule left x) ≤ left ∧ stage left (x :: rest) =
      (rule left x :: (stage (left - x.cost H (rule left x)) rest).1, (stage (left - x.cost H (rule left x)) rest).2) := by
  obtain ⟨hrule, hstage⟩ | ⟨g, hg, hfits, hgain, hstage⟩ := h
  · rw [hrule, Cand.cost_self]
    exact ⟨Nat.zero_le _, hstage⟩
  · rw [Cand.cost_of_gain hg hgain]
    exact ⟨hfits, hstage⟩

/-- A stage that serves its first candidate by a rule, and the others with what that leaves, is the walk of the rule. -/
theorem walksBy_of_serves {fresh : Cand → Bool} {rule : Nat → Cand → Cand} {stage : Nat → List Cand → List Cand × Nat}
    (hnil : ∀ left, stage left [] = ([], left))
    (hcons : ∀ left x rest, fresh x = true → ServesBy H rule stage left x rest) : WalksBy H fresh rule stage := by
  intro capacity xs hfresh
  induction xs generalizing capacity with
  | nil => simp [hnil, spent]
  | cons x rest ih =>
    obtain ⟨hx, hrest⟩ := List.forall_mem_cons.1 hfresh
    obtain ⟨hfits, hstage⟩ := (hcons capacity x rest hx).cost
    obtain ⟨hlength, hspent, hleft, hrule⟩ := ih (capacity - x.cost H (rule capacity x)) hrest
    rw [hstage]
    refine ⟨congrArg (· + 1) hlength, ?_, ?_, fun i y hy => ?_⟩
    · rw [spent_cons]
      omega
    · rw [spent_cons, hleft, Nat.sub_sub]
    · cases i with
      | zero =>
        obtain rfl : x = y := by simpa using hy
        simp [spent]
      | succ i =>
        rw [List.take_succ_cons, List.take_succ_cons, spent_cons, ← Nat.sub_sub]
        exact hrule i y hy

/-! ## The five stages (R97 to R103) -/

theorem stageA_walks (H : Nat) : WalksBy H (fun x => x.payload = 0)
    (fun left x => if x.greeting = true ∧ 1 + H ≤ left then { x with prior := 1 } else x) (stageA H) := by
  refine walksBy_of_serves (fun _ => rfl) fun left x rest hx => ?_
  have hpayload : x.prior + x.extra = 0 := of_decide_eq_true hx
  have hopening : x.opening H = H := if_pos hpayload
  by_cases h : x.greeting = true ∧ 1 + H ≤ left
  · refine .inr ⟨1, Nat.one_pos, by rw [hopening]; exact h.2, ?_, ?_⟩
    · simp only [if_pos h, Cand.payload]
      omega
    · simp only [stageA, if_pos h, hopening]
  · exact .inl ⟨if_neg h, by simp only [stageA, if_neg h]⟩

theorem committedPayload_eq (H left need c : Nat) : committedPayload H left need c =
    if min (max need 1) c + H ≤ left then min (max need 1) c else if H + 1 ≤ left then left - H else 0 := by
  have hroom : 1 ≤ left - H ↔ H + 1 ≤ left := by omega
  simp only [committedPayload, hroom]

/-- Whether a committed grant is given or skipped, it fits. -/
theorem committedPayload_cases {H left need c : Nat} (hc : 0 < c) :
    committedPayload H left need c = 0 ∨ (0 < committedPayload H left need c ∧ committedPayload H left need c + H ≤ left) := by
  rw [committedPayload_eq]
  split
  · omega
  · split <;> omega

theorem stageB_walks (H : Nat) : WalksBy H (fun x => x.greeting || x.payload = 0)
    (fun left x =>
      let g := min (max x.need 1) x.c
      if x.greeting = false ∧ 0 < x.c then
        if g + H ≤ left then { x with prior := g } else if H + 1 ≤ left then { x with prior := left - H } else x
      else x) (stageB H) := by
  refine walksBy_of_serves (fun _ => rfl) fun left x rest hx => ?_
  by_cases h : x.greeting = false ∧ 0 < x.c
  · have hpayload : x.prior + x.extra = 0 := by simpa [h.1, Cand.payload] using hx
    have hopening : x.opening H = H := if_pos hpayload
    have hrule : ∀ g, g = committedPayload H left x.need x.c → (if min (max x.need 1) x.c + H ≤ left then
        { x with prior := min (max x.need 1) x.c } else if H + 1 ≤ left then { x with prior := left - H } else x) =
        if 0 < g then { x with prior := g } else x := by
      rintro g rfl
      rw [committedPayload_eq]
      split
      · rw [if_pos (by omega)]
      · split
        · rw [if_pos (by omega)]
        · rw [if_neg (by omega)]
    simp only [ServesBy, if_pos h, hopening, stageB, hrule _ rfl]
    obtain hg | ⟨hg, hfits⟩ := committedPayload_cases (H := H) (left := left) (need := x.need) h.2
    · rw [hg]
      exact .inl ⟨rfl, rfl⟩
    · simp only [if_pos hg]
      refine .inr ⟨_, hg, hfits, ?_, rfl⟩
      simp only [Cand.payload]
      omega
  · exact .inl ⟨if_neg h, by simp only [stageB, if_neg h, Nat.lt_irrefl, if_false]⟩

theorem pollDue_eq (b : BuildSetting) (r : Option Round) :
    pollDue b r = r.all fun r => decide (b.poll < (b.target - r).toNat) := by
  cases r <;> rfl

theorem stageC_walks (b : BuildSetting) : WalksBy b.overhead (fun x => x.greeting || 0 < x.c || x.payload = 0)
    (fun left x =>
      let due := x.lastGranted.all fun r => b.poll < (b.target - r).toNat
      if x.greeting = false ∧ x.c = 0 ∧ due ∧ 1 + b.overhead ≤ left then { x with prior := 1, polled := true } else x)
    (stageC b) := by
  refine walksBy_of_serves (fun _ => rfl) fun left x rest hx => ?_
  simp only [ServesBy, ← pollDue_eq, stageC]
  by_cases h : x.greeting = false ∧ x.c = 0 ∧ pollDue b x.lastGranted ∧ 1 + b.overhead ≤ left
  · simp only [if_pos h]
    obtain ⟨hgreeting, hc, -, hfits⟩ := h
    have hpayload : x.prior + x.extra = 0 := by simpa [hgreeting, hc, Cand.payload] using hx
    have hopening : x.opening b.overhead = b.overhead := if_pos hpayload
    refine .inr ⟨1, Nat.one_pos, by rwa [hopening], ?_, by rw [hopening]⟩
    simp only [Cand.payload]
    omega
  · exact .inl ⟨if_neg h, if_neg h⟩

theorem dropSmall_pos {minBurst g : Nat} {new : Bool} :
    0 < dropSmall minBurst new g ↔ 1 ≤ g ∧ ¬ (new = true ∧ g < minBurst) := by
  unfold dropSmall
  cases new <;> simp only [Bool.false_eq_true, false_and, true_and, or_false, not_false_eq_true, and_true] <;> split <;> omega

theorem dropSmall_of_pos {minBurst g : Nat} {new : Bool} (h : 0 < dropSmall minBurst new g) : dropSmall minBurst new g = g := by
  unfold dropSmall at h ⊢
  split at h
  · exact absurd h (Nat.lt_irrefl 0)
  · exact if_neg ‹_›

theorem stageD_walks (b : BuildSetting) : WalksBy b.overhead (fun x => x.extra = 0)
    (fun left x =>
      let o := if x.prior = 0 then b.overhead else 0
      let g := min (min (x.credit / 256 - o) (x.need - x.prior)) (min (x.peak - x.prior) (left - o))
      if 1 ≤ g ∧ ¬ (x.prior = 0 ∧ g < b.minBurst) then { x with extra := g, credit := x.credit - 256 * (g + o) } else x)
    (stageD b) := by
  refine walksBy_of_serves (fun _ => rfl) fun left x rest hx => ?_
  have hextra : x.extra = 0 := of_decide_eq_true hx
  have hopening : x.opening b.overhead = if x.prior = 0 then b.overhead else 0 := by simp only [Cand.opening, Cand.payload, hextra, Nat.add_zero]
  simp only [ServesBy, stageD, Cand.unserved, Cand.belowPeak, ← hopening]
  generalize hg : min (min (x.credit / 256 - x.opening b.overhead) (x.need - x.prior))
    (min (x.peak - x.prior) (left - x.opening b.overhead)) = g
  have hpos : 0 < dropSmall b.minBurst (decide (x.prior = 0)) g ↔ 1 ≤ g ∧ ¬ (x.prior = 0 ∧ g < b.minBurst) := by
    rw [dropSmall_pos, decide_eq_true_iff]
  by_cases h : 1 ≤ g ∧ ¬ (x.prior = 0 ∧ g < b.minBurst)
  · rw [if_pos h, if_pos (hpos.2 h), dropSmall_of_pos (hpos.2 h)]
    refine .inr ⟨g, h.1, by omega, ?_, rfl⟩
    simp only [Cand.payload, hextra, Nat.add_zero]
  · rw [if_neg h, if_neg (mt hpos.1 h)]
    exact .inl ⟨rfl, rfl⟩

theorem stageE_walks (b : BuildSetting) : WalksBy b.overhead (fun _ => true)
    (fun left x =>
      let had := x.prior + x.extra
      let o := if had = 0 then b.overhead else 0
      let g := min (x.need - had) (min (x.peak - had) (left - o))
      if 1 ≤ g ∧ ¬ (had = 0 ∧ g < b.minBurst) then { x with extra := x.extra + g } else x)
    (stageE b) := by
  refine walksBy_of_serves (fun _ => rfl) fun left x rest _ => ?_
  have hopening : x.opening b.overhead = if x.prior + x.extra = 0 then b.overhead else 0 := rfl
  simp only [ServesBy, stageE, Cand.unserved, Cand.belowPeak, Nat.sub_sub, ← hopening]
  generalize hg : min (x.need - (x.prior + x.extra)) (min (x.peak - (x.prior + x.extra)) (left - x.opening b.overhead)) = g
  have hpos : 0 < dropSmall b.minBurst (decide (x.prior + x.extra = 0)) g ↔
      1 ≤ g ∧ ¬ (x.prior + x.extra = 0 ∧ g < b.minBurst) := by
    rw [dropSmall_pos, decide_eq_true_iff]
  by_cases h : 1 ≤ g ∧ ¬ (x.prior + x.extra = 0 ∧ g < b.minBurst)
  · rw [if_pos h, if_pos (hpos.2 h), dropSmall_of_pos (hpos.2 h)]
    exact .inr ⟨g, h.1, by omega, (Nat.add_assoc _ _ _).symm, rfl⟩
  · rw [if_neg h, if_neg (mt hpos.1 h)]
    exact .inl ⟨rfl, rfl⟩

/-! ## Sharing the excess (R100 to R103) -/

theorem Cand.settleCredit_eq : Cand.settleCredit = fun x => if x.need ≤ x.prior then { x with credit := 0 } else x := by
  funext x
  simp only [Cand.settleCredit, Cand.unserved, Nat.sub_eq_zero_iff_le]

theorem Cand.eligible_eq :
    Cand.eligible = fun x => decide (x.greeting = false ∧ x.prior < x.need ∧ x.prior < x.peak) := by
  funext x
  rw [Bool.eq_iff_iff]
  simp only [Cand.eligible, Cand.unserved, Cand.belowPeak, Bool.and_eq_true, Bool.not_eq_true', decide_eq_true_eq,
    Nat.sub_pos_iff_lt, and_assoc]

theorem shareExcess_of_none {lead excess : Nat} {xs : List Cand}
    (h : excess = 0 ∨ (xs.map Cand.settleCredit).filter Cand.eligible = []) :
    shareExcess b lead excess xs = (xs.map Cand.settleCredit, lead) := if_pos h

theorem shareExcess_of_some {lead excess : Nat} {xs settled members : List Cand} (hs : xs.map Cand.settleCredit = settled)
    (hm : settled.filter Cand.eligible = members) (h : ¬ (excess = 0 ∨ members = [])) :
    let order := walkOrder lead (members.map (Cand.share b.overhead excess (members.map Cand.w).sum))
    let d := stageD b excess order
    shareExcess b lead excess xs = (putBack (stageE b d.2 d.1).1 settled, leadAfter lead order) := by
  subst hs hm
  exact if_neg h

theorem leadAfter_head (lead : Nat) (order : List Cand) :
    ∀ x ∈ order.head?, leadAfter lead order = if x.tag = 128 then 1 else x.tag + 1 := by
  cases order with
  | nil => exact nofun
  | cons y rest =>
    rintro x hx
    obtain rfl : y = x := by simpa using hx
    rfl

theorem candidateOf_active {tag : Nat} {e : Entry} {f : Active} (hh : e.hushed = false) (hw : e.owed.wake = false)
    (hf : e.body = .active f) : candidateOf tag e = some
      { tag := tag, occupied := e.occupied, greeting := false, c := e.contract.c
        peak := if e.capped then e.contract.c else e.contract.p, w := e.contract.w, need := f.need, credit := f.credit
        lastGranted := f.lastGranted, prior := 0, polled := false, extra := 0 } := by
  simp [candidateOf, hh, hw, hf]

theorem candidateOf_timed {tag : Nat} {e : Entry} (hh : e.hushed = false) (hw : e.owed.wake = false)
    (ht : e.state = .timed) (ha : e.owed.assign = false) : candidateOf tag e = some
      { tag := tag, occupied := e.occupied, greeting := true, c := 0, peak := 0, w := 0, need := 0, credit := 0
        lastGranted := none, prior := 0, polled := false, extra := 0 } := by
  obtain ⟨f, hf⟩ : ∃ f, e.body = .timed f := by
    cases hb : e.body <;> simp [Entry.state, hb] at ht
    exact ⟨_, rfl⟩
  simp [candidateOf, hh, hw, hf, ha]

/-- Settles O40: each stage serves its candidates one by one, so it is the walk of its rule. -/
theorem stagesShareCapacity : Obligations.StagesShareCapacity := by
  refine ⟨stageA_walks, stageB_walks, fun b => ⟨stageC_walks b, stageD_walks b, stageE_walks b, ?_, ?_, fun _ _ _ => rfl⟩⟩
  · intro lead excess xs settled members
    have hsettled : xs.map Cand.settleCredit = settled := by rw [Cand.settleCredit_eq]
    have hmembers : (xs.map Cand.settleCredit).filter Cand.eligible = members := by rw [hsettled, Cand.eligible_eq]
    refine ⟨fun h => ?_, fun he hm => ?_⟩
    · rw [shareExcess_of_none (by rwa [hmembers]), hsettled]
    · intro weights shared order d e r
      have hshare : r = (putBack e.1 settled, leadAfter lead order) := by
        refine shareExcess_of_some hsettled (hsettled ▸ hmembers) ?_
        rintro (h | h)
        · exact absurd he (by omega)
        · exact hm h
      rw [hshare]
      exact ⟨rfl, leadAfter_head lead order⟩
  · refine fun tag e hh hw => ⟨fun f hf => candidateOf_active hh hw hf, fun ht ha => ?_⟩
    exact ⟨_, candidateOf_timed hh hw ht ha, rfl, rfl, rfl, rfl, rfl⟩

end Sys2Proof.Machine
end

section
/-! PROOFS. What a build's stages give in all: each candidate within its peak, and all within the capacity (R94 to R105). -/

namespace Sys2Proof.Machine

variable {H : Nat} {b : BuildSetting} {rule : Nat → Cand → Cand} {fresh : Cand → Bool}
  {stage : Nat → List Cand → List Cand × Nat} {xs ys : List Cand} {capacity : Nat}

/-! ## What a walk keeps -/

/-- A walk makes of each candidate what its rule gives. -/
theorem WalksBy.forall₂ (h : WalksBy H fresh rule stage) (hf : ∀ x ∈ xs, fresh x = true) :
    List.Forall₂ (fun x y => x ∈ xs ∧ ∃ left, y = rule left x) xs (stage capacity xs).1 := by
  obtain ⟨hlength, -, -, hrule⟩ := h capacity xs hf
  refine List.forall₂_iff_get.2 ⟨hlength.symm, fun i hx hy => ⟨List.get_mem xs ⟨i, hx⟩, ?_⟩⟩
  have hi := hrule i xs[i] (List.getElem?_eq_getElem hx)
  rw [List.getElem?_eq_getElem hy] at hi
  exact ⟨_, Option.some.inj hi⟩

theorem WalksBy.mem (h : WalksBy H fresh rule stage) (hf : ∀ x ∈ xs, fresh x = true) {y : Cand}
    (hy : y ∈ (stage capacity xs).1) : ∃ x ∈ xs, ∃ left, y = rule left x := by
  obtain ⟨i, hi, rfl⟩ := List.getElem_of_mem hy
  have hwalk := h.forall₂ (capacity := capacity) hf
  have hx : i < xs.length := hwalk.length_eq ▸ hi
  obtain ⟨hmem, left, heq⟩ := hwalk.get hx hi
  exact ⟨_, hmem, left, heq⟩

theorem WalksBy.map_eq (h : WalksBy H fresh rule stage) (hf : ∀ x ∈ xs, fresh x = true) {β : Type} {g : Cand → β}
    (hg : ∀ left x, g (rule left x) = g x) : (stage capacity xs).1.map g = xs.map g := by
  have hall : ∀ {l l' : List Cand}, List.Forall₂ (fun x y => x ∈ xs ∧ ∃ left, y = rule left x) l l' → l'.map g = l.map g := by
    intro l l' hl
    induction hl with
    | nil => rfl
    | cons hxy _ ih =>
      obtain ⟨-, left, rfl⟩ := hxy
      rw [List.map_cons, List.map_cons, hg, ih]
  exact hall (h.forall₂ hf)

/-- The quanta that candidates take with what they have been given. -/
def Cand.quanta (overhead : Nat) (x : Cand) : Nat := if x.payload = 0 then 0 else x.payload + overhead

def used (overhead : Nat) (xs : List Cand) : Nat := (xs.map (Cand.quanta overhead)).sum

theorem Cand.quanta_eq {x y : Cand} (h : x.payload ≤ y.payload) : y.quanta H = x.quanta H + x.cost H y := by
  simp only [Cand.quanta, Cand.cost]
  split <;> split <;> split <;> omega

theorem used_eq (h : List.Forall₂ (fun x y : Cand => x.payload ≤ y.payload) xs ys) : used H ys = used H xs + spent H xs ys := by
  induction h with
  | nil => rfl
  | cons hxy _ ih =>
    rw [spent_cons, used, used, List.map_cons, List.map_cons, List.sum_cons, List.sum_cons, Cand.quanta_eq hxy]
    rw [used, used] at ih
    omega

/-- What a walk gives and what it leaves is what it was given. -/
theorem WalksBy.used (h : WalksBy H fresh rule stage) (hf : ∀ x ∈ xs, fresh x = true)
    (hg : ∀ left x, fresh x = true → x.payload ≤ (rule left x).payload) :
    used H (stage capacity xs).1 + (stage capacity xs).2 = used H xs + capacity := by
  obtain ⟨-, hspent, hleft, -⟩ := h capacity xs hf
  have hgains : List.Forall₂ (fun x y : Cand => x.payload ≤ y.payload) xs (stage capacity xs).1 :=
    (h.forall₂ hf).imp fun x y ⟨hmem, left, heq⟩ => heq ▸ hg left x (hf x hmem)
  have hused := used_eq (H := H) hgains
  omega

/-! ## The candidates after each stage -/

/-- What names a candidate and bounds its payload: no stage changes it. -/
def Cand.identity (x : Cand) : Nat × Round × Bool × Nat × Nat := (x.tag, x.occupied, x.greeting, x.c, x.peak)

/-- A candidate as a build takes it (R95). -/
def Cand.Fresh (x : Cand) : Prop := x.prior = 0 ∧ x.extra = 0 ∧ x.c ≤ x.peak

/-- A candidate after the greetings (R97). -/
def Cand.Greeted (x : Cand) : Prop := x.extra = 0 ∧ x.c ≤ x.peak ∧ if x.greeting then x.prior ≤ 1 else x.prior = 0

/-- A candidate after the committed grants (R98). -/
def Cand.Committed (x : Cand) : Prop :=
  x.extra = 0 ∧ if x.greeting then x.prior ≤ 1 else x.prior ≤ x.peak ∧ (x.c = 0 → x.prior = 0)

/-- A candidate after the polls (R99). -/
def Cand.Polled (x : Cand) : Prop := x.extra = 0 ∧ if x.greeting then x.prior ≤ 1 else x.prior ≤ max 1 x.peak

/-- A candidate after the build. -/
def Cand.Served (x : Cand) : Prop := if x.greeting then x.payload ≤ 1 else x.payload ≤ max 1 x.peak

/-- What a list of candidates keeps through a stage: who they are, and the quanta between them and the capacity left. -/
structure StageKept (H : Nat) (xs : List Cand) (capacity : Nat) (r : List Cand × Nat) : Prop where
  identity : r.1.map Cand.identity = xs.map Cand.identity
  used : used H r.1 + r.2 = used H xs + capacity

theorem stageA_spec (hx : ∀ x ∈ xs, x.Fresh) (capacity : Nat) :
    StageKept H xs capacity (stageA H capacity xs) ∧ ∀ y ∈ (stageA H capacity xs).1, y.Greeted := by
  have hf : ∀ x ∈ xs, decide (x.payload = 0) = true := fun x h => by
    obtain ⟨hprior, hextra, -⟩ := hx x h
    simp [Cand.payload, hprior, hextra]
  refine ⟨⟨(stageA_walks H).map_eq hf fun left x => ?_, (stageA_walks H).used hf fun left x h => ?_⟩, fun y hy => ?_⟩
  · split <;> rfl
  · rw [of_decide_eq_true h]
    exact Nat.zero_le _
  · obtain ⟨x, hmem, left, rfl⟩ := (stageA_walks H).mem hf hy
    obtain ⟨hprior, hextra, hpeak⟩ := hx x hmem
    split
    · rename_i h
      simp [Cand.Greeted, hextra, hpeak, h.1]
    · simp [Cand.Greeted, hextra, hpeak, hprior]

theorem stageB_spec (hx : ∀ x ∈ xs, x.Greeted) (capacity : Nat) :
    StageKept H xs capacity (stageB H capacity xs) ∧ ∀ y ∈ (stageB H capacity xs).1, y.Committed := by
  have hf : ∀ x ∈ xs, (x.greeting || decide (x.payload = 0)) = true := fun x h => by
    obtain ⟨hextra, -, hprior⟩ := hx x h
    cases hg : x.greeting
    · simpa [Cand.payload, hextra, hg] using hprior
    · rfl
  refine ⟨⟨(stageB_walks H).map_eq hf fun left x => ?_, (stageB_walks H).used hf fun left x h => ?_⟩, fun y hy => ?_⟩
  · simp only
    split
    · split
      · rfl
      · split <;> rfl
    · rfl
  · simp only
    split
    · rename_i hc
      have hnone : x.payload = 0 := by simpa [hc.1] using h
      rw [hnone]
      exact Nat.zero_le _
    · exact Nat.le_refl _
  · obtain ⟨x, hmem, left, rfl⟩ := (stageB_walks H).mem hf hy
    obtain ⟨hextra, hpeak, hprior⟩ := hx x hmem
    simp only
    split
    · rename_i hc
      rw [hc.1, if_neg Bool.false_ne_true] at hprior
      split
      · exact ⟨hextra, by simp only [hc.1, Bool.false_eq_true, if_false]; omega⟩
      · split
        · exact ⟨hextra, by simp only [hc.1, Bool.false_eq_true, if_false]; omega⟩
        · exact ⟨hextra, by simp only [hc.1, Bool.false_eq_true, if_false]; omega⟩
    · refine ⟨hextra, ?_⟩
      split
      · rwa [if_pos ‹_›] at hprior
      · rw [if_neg ‹_›] at hprior
        omega

theorem stageC_spec (hx : ∀ x ∈ xs, x.Committed) (capacity : Nat) :
    StageKept b.overhead xs capacity (stageC b capacity xs) ∧ ∀ y ∈ (stageC b capacity xs).1, y.Polled := by
  have hf : ∀ x ∈ xs, (x.greeting || decide (0 < x.c) || decide (x.payload = 0)) = true := fun x h => by
    obtain ⟨hextra, hprior⟩ := hx x h
    cases hg : x.greeting
    · rw [hg, if_neg Bool.false_ne_true] at hprior
      simp only [Bool.false_or, Bool.or_eq_true, decide_eq_true_eq, Cand.payload, hextra]
      omega
    · rfl
  refine ⟨⟨(stageC_walks b).map_eq hf fun left x => ?_, (stageC_walks b).used hf fun left x h => ?_⟩, fun y hy => ?_⟩
  · simp only
    split <;> rfl
  · simp only
    split
    · rename_i hc
      have hnone : x.payload = 0 := by simpa [hc.1, hc.2.1] using h
      rw [hnone]
      exact Nat.zero_le _
    · exact Nat.le_refl _
  · obtain ⟨x, hmem, left, rfl⟩ := (stageC_walks b).mem hf hy
    obtain ⟨hextra, hprior⟩ := hx x hmem
    simp only
    split
    · rename_i hc
      exact ⟨hextra, by simp only [hc.1, Bool.false_eq_true, if_false]; omega⟩
    · refine ⟨hextra, ?_⟩
      split
      · rwa [if_pos ‹_›] at hprior
      · rw [if_neg ‹_›] at hprior
        omega

/-- A member of the eligible set before the walk (R100). -/
def Cand.Member (x : Cand) : Prop := x.extra = 0 ∧ x.greeting = false ∧ x.prior < x.peak

/-- A member after the walk or the sweep (R102, R103). -/
def Cand.Shared (x : Cand) : Prop := x.greeting = false ∧ x.payload ≤ x.peak

theorem stageD_spec (hx : ∀ x ∈ xs, x.Member) (capacity : Nat) :
    StageKept b.overhead xs capacity (stageD b capacity xs) ∧ ∀ y ∈ (stageD b capacity xs).1, y.Shared := by
  have hf : ∀ x ∈ xs, decide (x.extra = 0) = true := fun x h => decide_eq_true (hx x h).1
  refine ⟨⟨(stageD_walks b).map_eq hf fun left x => ?_, (stageD_walks b).used hf fun left x h => ?_⟩, fun y hy => ?_⟩
  · simp only
    generalize min (min _ _) (min (x.peak - x.prior) _) = g
    split <;> rfl
  · have hextra := of_decide_eq_true h
    simp only
    generalize min (min _ _) (min (x.peak - x.prior) _) = g
    split
    · simp only [Cand.payload, hextra]
      omega
    · exact Nat.le_refl _
  · obtain ⟨x, hmem, left, rfl⟩ := (stageD_walks b).mem hf hy
    obtain ⟨hextra, hgreeting, hprior⟩ := hx x hmem
    simp only
    generalize hg : min (min _ _) (min (x.peak - x.prior) _) = g
    split
    · refine ⟨hgreeting, ?_⟩
      simp only [Cand.payload]
      omega
    · refine ⟨hgreeting, ?_⟩
      simp only [Cand.payload, hextra]
      omega

theorem stageE_spec (hx : ∀ x ∈ xs, x.Shared) (capacity : Nat) :
    StageKept b.overhead xs capacity (stageE b capacity xs) ∧ ∀ y ∈ (stageE b capacity xs).1, y.Shared := by
  have hf : ∀ x ∈ xs, (fun _ => true) x = true := fun _ _ => rfl
  refine ⟨⟨(stageE_walks b).map_eq hf fun left x => ?_, (stageE_walks b).used hf fun left x _ => ?_⟩, fun y hy => ?_⟩
  · simp only
    generalize min _ (min (x.peak - (x.prior + x.extra)) _) = g
    split <;> rfl
  · simp only
    generalize min _ (min (x.peak - (x.prior + x.extra)) _) = g
    split
    · simp only [Cand.payload]
      omega
    · exact Nat.le_refl _
  · obtain ⟨x, hmem, left, rfl⟩ := (stageE_walks b).mem hf hy
    obtain ⟨hgreeting, hpayload⟩ := hx x hmem
    simp only
    generalize hg : min _ (min (x.peak - (x.prior + x.extra)) _) = g
    split
    · refine ⟨hgreeting, ?_⟩
      simp only [Cand.payload] at hpayload ⊢
      omega
    · exact ⟨hgreeting, hpayload⟩

/-! ## The members put back among the others (R100 to R103) -/

theorem find_tag_of_mem (h : (ys.map Cand.tag).Nodup) {y : Cand} (hy : y ∈ ys) :
    (ys.find? fun z => z.tag = y.tag) = some y := by
  induction ys with
  | nil => exact absurd hy List.not_mem_nil
  | cons z rest ih =>
    obtain ⟨hz, hrest⟩ := List.nodup_cons.1 h
    obtain rfl | hy := List.mem_cons.1 hy
    · exact List.find?_cons_of_pos (decide_eq_true rfl)
    · rw [List.find?_cons_of_neg, ih hrest hy]
      exact fun hc => hz (of_decide_eq_true hc ▸ List.mem_map_of_mem hy)

theorem tag_inj (h : (xs.map Cand.tag).Nodup) {x y : Cand} (hx : x ∈ xs) (hy : y ∈ xs) (heq : x.tag = y.tag) : x = y := by
  have hfind := find_tag_of_mem h hx
  rw [heq, find_tag_of_mem h hy] at hfind
  exact (Option.some.inj hfind).symm

theorem putBack_map {β : Type} {g : Cand → β} (h : ∀ x ∈ xs, ∀ y ∈ ys, y.tag = x.tag → g y = g x) :
    (putBack ys xs).map g = xs.map g := by
  rw [putBack, List.map_map]
  refine List.map_congr_left fun x hx => ?_
  rw [Function.comp]
  cases hy : ys.find? fun y => y.tag = x.tag with
  | none => rfl
  | some y => exact h x hx y (List.mem_of_find?_eq_some hy) (by simpa using List.find?_some hy)

theorem used_perm (h : xs.Perm ys) : used H xs = used H ys := (h.map _).sum_eq

theorem used_append : used H (xs ++ ys) = used H xs + used H ys := by rw [used, List.map_append, List.sum_append]; rfl

theorem used_map {f : Cand → Cand} (h : ∀ x, (f x).payload = x.payload) : used H (xs.map f) = used H xs := by
  rw [used, List.map_map, used]
  refine congrArg List.sum (List.map_congr_left fun x _ => ?_)
  simp only [Function.comp, Cand.quanta, h]

/-- The quanta at a tag among the members walked. -/
def quantaAt (H : Nat) (ys : List Cand) (tag : Nat) : Nat := ((ys.find? fun y => y.tag = tag).map (Cand.quanta H)).getD 0

/-- Once the members are put back, the quanta are theirs and those of the candidates that are not members. -/
theorem used_putBack {p : Cand → Bool} (hx : (xs.map Cand.tag).Nodup) (hy : (ys.map Cand.tag).Perm ((xs.filter p).map Cand.tag)) :
    used H (putBack ys xs) = used H ys + used H (xs.filter fun x => !p x) := by
  have hynodup : (ys.map Cand.tag).Nodup := hy.nodup_iff.2 (hx.sublist (List.filter_sublist.map _))
  have hmember : ∀ x ∈ xs.filter p, ((ys.find? fun y => y.tag = x.tag).getD x).quanta H = quantaAt H ys x.tag := fun x hmem => by
    obtain ⟨y, hmem', htag⟩ := List.mem_map.1 (hy.mem_iff.2 (List.mem_map_of_mem hmem))
    rw [quantaAt, ← htag, find_tag_of_mem hynodup hmem']
    rfl
  have hother : ∀ x ∈ xs.filter fun x => !p x, (ys.find? fun y => y.tag = x.tag).getD x = x := fun x hmem => by
    rw [List.find?_eq_none.2, Option.getD_none]
    intro y hmem' heq
    obtain ⟨hmem, hnot⟩ := List.mem_filter.1 hmem
    obtain ⟨x', hmember', htag⟩ := List.mem_map.1 (hy.mem_iff.1 (List.mem_map_of_mem hmem'))
    obtain ⟨hmem'', hp⟩ := List.mem_filter.1 hmember'
    rw [← tag_inj hx hmem'' hmem (htag.trans (of_decide_eq_true heq)), hp] at hnot
    exact absurd hnot Bool.false_ne_true
  have hsplit : (putBack ys xs).Perm (putBack ys (xs.filter p) ++ putBack ys (xs.filter fun x => !p x)) := by
    rw [putBack, putBack, putBack, ← List.map_append]
    exact (List.filter_append_perm p xs).symm.map _
  have hmembers : used H (putBack ys (xs.filter p)) = used H ys := by
    have hat : (putBack ys (xs.filter p)).map (Cand.quanta H) = ((xs.filter p).map Cand.tag).map (quantaAt H ys) := by
      rw [putBack, List.map_map, List.map_map]
      exact List.map_congr_left hmember
    rw [used, hat, ← (hy.map (quantaAt H ys)).sum_eq, List.map_map, used]
    refine congrArg List.sum (List.map_congr_left fun y hmem => ?_)
    rw [Function.comp, quantaAt, find_tag_of_mem hynodup hmem]
    rfl
  have hothers : putBack ys (xs.filter fun x => !p x) = xs.filter fun x => !p x := by
    rw [putBack, List.map_congr_left hother, List.map_id']
  rw [used_perm hsplit, used_append, hmembers, hothers]

theorem walkOrder_perm (lead : Nat) (xs : List Cand) : (walkOrder lead xs).Perm xs := by
  have hsplit : (xs.filter fun x => decide (x.tag < lead)) = xs.filter fun x => !decide (lead ≤ x.tag) :=
    List.filter_congr fun x _ => by simp only [← Nat.not_le, decide_not]
  rw [walkOrder, hsplit]
  exact List.filter_append_perm _ xs

theorem Cand.settleCredit_keeps (x : Cand) :
    x.settleCredit.identity = x.identity ∧ x.settleCredit.prior = x.prior ∧ x.settleCredit.extra = x.extra := by
  unfold Cand.settleCredit
  split <;> exact ⟨rfl, rfl, rfl⟩

theorem Cand.Polled.settleCredit {x : Cand} (h : x.Polled) : x.settleCredit.Polled := by
  unfold Cand.settleCredit
  split <;> exact h

theorem Cand.Polled.served {x : Cand} (h : x.Polled) : x.Served := by
  obtain ⟨hextra, hprior⟩ := h
  rwa [Cand.Served, Cand.payload, hextra, Nat.add_zero]

theorem Cand.Shared.served {x : Cand} (h : x.Shared) : x.Served := by
  rw [Cand.Served, h.1, if_neg Bool.false_ne_true]
  exact Nat.le_trans h.2 (Nat.le_max_right _ _)

theorem Cand.Polled.member {x : Cand} (h : x.Polled) (he : x.eligible = true) : x.Member := by
  rw [Cand.eligible_eq, decide_eq_true_eq] at he
  exact ⟨h.1, he.1, he.2.2⟩

theorem map_tag_of_identity (h : ys.map Cand.identity = xs.map Cand.identity) : ys.map Cand.tag = xs.map Cand.tag := by
  have hmap : ∀ l : List Cand, l.map Cand.tag = (l.map Cand.identity).map Prod.fst := fun l => by
    rw [List.map_map]
    rfl
  rw [hmap, hmap, h]

/-- What a build's stages make of its candidates: the same candidates, each served within its peak, and the quanta of all within
the capacity. -/
structure Shares (H : Nat) (xs : List Cand) (capacity : Nat) (ys : List Cand) : Prop where
  identity : ys.map Cand.identity = xs.map Cand.identity
  served : ∀ y ∈ ys, y.Served
  within : used H ys ≤ used H xs + capacity

/-- The walk and the sweep over the members, and the members put back (R102, R103). -/
theorem shared_spec (hx : ∀ x ∈ xs, x.Polled) (hnodup : (xs.map Cand.tag).Nodup) (lead excess weights : Nat) :
    let order := walkOrder lead ((xs.filter Cand.eligible).map (Cand.share b.overhead excess weights))
    let d := stageD b excess order
    Shares b.overhead xs excess (putBack (stageE b d.2 d.1).1 xs) := by
  intro order d
  have hperm : order.Perm ((xs.filter Cand.eligible).map (Cand.share b.overhead excess weights)) := walkOrder_perm lead _
  have hfrom : ∀ y ∈ order, ∃ x ∈ xs, x.eligible = true ∧ y = x.share b.overhead excess weights := fun y hy => by
    obtain ⟨x, hmem, rfl⟩ := List.mem_map.1 (hperm.mem_iff.1 hy)
    exact ⟨x, (List.mem_filter.1 hmem).1, (List.mem_filter.1 hmem).2, rfl⟩
  have hmembers : ∀ y ∈ order, y.Member := fun y hy => by
    obtain ⟨x, hmem, he, rfl⟩ := hfrom y hy
    exact (hx x hmem).member he
  obtain ⟨hwalk, hwalked⟩ := stageD_spec (b := b) hmembers excess
  obtain ⟨hsweep, hswept⟩ := stageE_spec (b := b) hwalked d.2
  have hidentity := hsweep.identity.trans hwalk.identity
  have htags : ((stageE b d.2 d.1).1.map Cand.tag).Perm ((xs.filter Cand.eligible).map Cand.tag) := by
    rw [map_tag_of_identity hidentity]
    refine (hperm.map Cand.tag).trans (List.Perm.of_eq ?_)
    rw [List.map_map]
    rfl
  refine ⟨putBack_map fun x hmem y hy htag => ?_, fun y hy => ?_, ?_⟩
  · obtain ⟨z, hz, hsame⟩ := List.mem_map.1 (hidentity ▸ List.mem_map_of_mem (f := Cand.identity) hy)
    obtain ⟨m, hm, -, rfl⟩ := hfrom z hz
    have hsame : m.identity = y.identity := hsame
    rw [← hsame, tag_inj hnodup hm hmem ((congrArg Prod.fst hsame).trans htag)]
  · obtain hy | hy := mem_putBack hy
    · exact (hswept y hy).served
    · exact (hx y hy).served
  · have hused := used_putBack (H := b.overhead) hnodup htags
    have horder : used b.overhead order = used b.overhead (xs.filter Cand.eligible) := (used_perm hperm).trans (used_map fun _ => rfl)
    have hsplit : used b.overhead (xs.filter Cand.eligible) + used b.overhead (xs.filter fun x => !x.eligible) = used b.overhead xs := by
      rw [← used_append, used_perm (List.filter_append_perm _ xs)]
    have hwalkUsed : used b.overhead d.1 + d.2 = used b.overhead order + excess := hwalk.used
    have hsweepUsed : used b.overhead (stageE b d.2 d.1).1 + (stageE b d.2 d.1).2 = used b.overhead d.1 + d.2 := hsweep.used
    omega

theorem shareExcess_spec (hx : ∀ x ∈ xs, x.Polled) (hnodup : (xs.map Cand.tag).Nodup) (lead excess : Nat) :
    Shares b.overhead xs excess (shareExcess b lead excess xs).1 := by
  have hidentity : (xs.map Cand.settleCredit).map Cand.identity = xs.map Cand.identity := by
    rw [List.map_map]
    exact List.map_congr_left fun x _ => x.settleCredit_keeps.1
  have hpolled : ∀ y ∈ xs.map Cand.settleCredit, y.Polled := List.forall_mem_map.2 fun x h => (hx x h).settleCredit
  have hused : used b.overhead (xs.map Cand.settleCredit) = used b.overhead xs := used_map fun x => by
    obtain ⟨-, hprior, hextra⟩ := x.settleCredit_keeps
    rw [Cand.payload, hprior, hextra, Cand.payload]
  rw [← map_tag_of_identity hidentity] at hnodup
  suffices hshares : Shares b.overhead (xs.map Cand.settleCredit) excess (shareExcess b lead excess xs).1 from
    ⟨hshares.identity.trans hidentity, hshares.served, hused ▸ hshares.within⟩
  by_cases h : excess = 0 ∨ (xs.map Cand.settleCredit).filter Cand.eligible = []
  · rw [shareExcess_of_none h]
    exact ⟨rfl, fun y hy => (hpolled y hy).served, Nat.le_add_right _ _⟩
  · rw [shareExcess_of_some rfl rfl h]
    exact shared_spec hpolled hnodup lead excess _

theorem runStages_spec (hx : ∀ x ∈ xs, x.Fresh) (hnodup : (xs.map Cand.tag).Nodup) (lead capacity : Nat) :
    Shares b.overhead xs capacity (runStages b lead capacity xs).1 := by
  simp only [runStages]
  obtain ⟨hkeptA, hA⟩ := stageA_spec (H := b.overhead) hx capacity
  generalize stageA b.overhead capacity xs = a at *
  obtain ⟨hkeptB, hB⟩ := stageB_spec (H := b.overhead) hA a.2
  generalize stageB b.overhead a.2 a.1 = c at *
  obtain ⟨hkeptC, hC⟩ := stageC_spec (b := b) hB c.2
  generalize stageC b c.2 c.1 = d at *
  have hidentity := (hkeptC.identity.trans hkeptB.identity).trans hkeptA.identity
  rw [← map_tag_of_identity hidentity] at hnodup
  have hshares := shareExcess_spec (b := b) hC hnodup lead d.2
  refine ⟨hshares.identity.trans hidentity, hshares.served, ?_⟩
  have hwithin := hshares.within
  have husedA := hkeptA.used
  have husedB := hkeptB.used
  have husedC := hkeptC.used
  omega

theorem used_of_fresh (hx : ∀ x ∈ xs, x.Fresh) : used H xs = 0 := by
  rw [used, List.sum_eq_zero_iff]
  rintro n hn
  obtain ⟨x, hmem, rfl⟩ := List.mem_map.1 hn
  obtain ⟨hprior, hextra, -⟩ := hx x hmem
  simp [Cand.quanta, Cand.payload, hprior, hextra]

/-! ## Placing the grants (R105) -/

theorem placeGrants_contiguous (start : Nat) (ys : List Cand) (h : start + used H ys ≤ roundQuanta) :
    PlanRecord.fits.contiguous start (placeGrants H start ys) = true := by
  induction ys generalizing start with
  | nil => simpa [placeGrants, PlanRecord.fits.contiguous, used] using h
  | cons y rest ih =>
    rw [used, List.map_cons, List.sum_cons, Cand.quanta] at h
    unfold placeGrants
    split
    · rw [if_pos ‹_›] at h
      exact ih start (by rw [used]; omega)
    · rw [if_neg ‹_›] at h
      simp only [PlanRecord.fits.contiguous, beq_self_eq_true, Bool.true_and]
      exact ih _ (by rw [used]; omega)

theorem placeGrants_map (start : Nat) (ys : List Cand) :
    ((placeGrants H start ys).map fun g => (g.tag, g.payload, g.kind)) =
      (ys.filter fun y => 0 < y.payload).map fun y => (y.tag, y.payload, y.kind) := by
  induction ys generalizing start with
  | nil => rfl
  | cons y rest ih =>
    unfold placeGrants
    by_cases h : y.payload = 0
    · rw [if_pos h, ih, List.filter_cons_of_neg (by simp [h])]
    · rw [if_neg h, List.map_cons, ih, List.filter_cons_of_pos (by simpa [Nat.pos_iff_ne_zero] using h), List.map_cons]

theorem placeGrants_tags (start : Nat) (ys : List Cand) :
    ((placeGrants H start ys).map fun g => g.tag).Sublist (ys.map Cand.tag) := by
  have hmap : ((placeGrants H start ys).map fun g => g.tag) = (ys.filter fun y => 0 < y.payload).map Cand.tag := by
    have htags := congrArg (List.map fun x : Nat × Nat × GrantKind => x.1) (placeGrants_map (H := H) start ys)
    rwa [List.map_map, List.map_map] at htags
  rw [hmap]
  exact List.filter_sublist.map _

theorem mem_placeGrants {start : Nat} {g : Grant} (h : g ∈ placeGrants H start ys) : ∃ y ∈ ys, y.payload ≠ 0 ∧ ∃ n,
    g = { tag := y.tag, occupied := y.occupied, start := n, payload := y.payload, length := y.payload + H, kind := y.kind } := by
  induction ys generalizing start with
  | nil => exact absurd h List.not_mem_nil
  | cons y rest ih =>
    unfold placeGrants at h
    split at h
    · obtain ⟨x, hmem, hx⟩ := ih h
      exact ⟨x, List.mem_cons_of_mem _ hmem, hx⟩
    · obtain rfl | h := List.mem_cons.1 h
      · exact ⟨y, List.mem_cons_self, ‹_›, start, rfl⟩
      · obtain ⟨x, hmem, hx⟩ := ih h
        exact ⟨x, List.mem_cons_of_mem _ hmem, hx⟩

end Sys2Proof.Machine
end

section
/-! PROOFS. The build of a RUNNING tree (O41): the answers it is given, its plan record, and what becomes of the entries. -/

namespace Sys2Proof.Machine

variable {s : State} {k j : TreeId} {tag H n : Nat} {e : Entry}

/-! ## The answers of the engine and the supervisor (R43, R126) -/

/-- The engine once it has answered (R43 to R45). -/
def State.scheduled (s : State) (k : TreeId) : Engine :=
  let g := (s.tree k).engine
  if g.deferred then
    if s.hunting k then { g with chosen := some .noWindow }
    else { g with deferred := false, count := 0, chosen := some (s.chooseWindow k) }
  else if (s.tree k).settings.kCall ≤ g.count + 1 then
    if s.hunting k then { g with count := 0, deferred := true, chosen := some .noWindow }
    else { g with count := 0, chosen := some (s.chooseWindow k) }
  else { g with count := g.count + 1, chosen := some .noWindow }

/-- The supervisor once it has answered (R126). -/
def State.cadenced (s : State) (k : TreeId) : Light :=
  let l := (s.tree k).light
  if l.darkDue (s.tree k).settings.kDark then { l with cadence := 0, darkAnswer := some true }
  else { l with cadence := l.cadence + 1, darkAnswer := some false }

/-- The part once both have answered for a tree. -/
def State.answered (s : State) (k : TreeId) : State := (s.scheduleAct k).cadenceAct k

theorem State.scheduleAct_eq : s.scheduleAct k = s.modEngine k fun _ => s.scheduled k := by
  simp only [State.scheduleAct, State.scheduled]
  split
  · split <;> rfl
  · split
    · split <;> rfl
    · rfl

theorem State.answered_eq :
    s.answered k = s.setTree k { s.tree k with engine := s.scheduled k, light := s.cadenced k } := by
  have htree : (s.scheduleAct k).tree k = { s.tree k with engine := s.scheduled k } := by
    rw [State.scheduleAct_eq, State.modEngine_tree]
  rw [State.answered, State.cadenceAct, State.modLight, State.modTree, htree, State.scheduleAct_eq, State.modEngine, State.modTree,
    State.setTree_setTree]
  simp only [State.cadenced]

theorem State.answered_tree : (s.answered k).tree k = { s.tree k with engine := s.scheduled k, light := s.cadenced k } := by
  rw [State.answered_eq, State.setTree_tree]

theorem State.answered_tree_ne (h : j ≠ k) : (s.answered k).tree j = s.tree j := by
  rw [State.answered_eq, State.setTree_tree_ne _ _ h]

theorem State.answered_roster : (s.answered k).roster = s.roster := by rw [State.answered_eq]; rfl

theorem State.answered_round : (s.answered k).round = s.round := by rw [State.answered_eq]; rfl

theorem State.answered_entry : (s.answered k).entry j tag = s.entry j tag := State.entry_of_roster State.answered_roster j tag

theorem State.buildPlan_of_running (h : (s.tree k).phase = .running) :
    s.buildPlan k = ((s.answered k).buildFull k).forgetAnswers k := by
  simp only [State.buildPlan, h]
  rfl

/-! ## The window that is offered (R46) -/

theorem State.offerWindow_of_call (n : Round) {w : PlanWindow} (h : w.kind = .call) :
    s.offerWindow k n w = s.modEngine k fun g => { g with windows := g.windows ++
      [{ round := n, kind := .call, opening := w.opening, width := w.width }] } := by
  simp only [State.offerWindow, h]

theorem State.offerWindow_of_probe (n : Round) {w : PlanWindow} (h : w.kind = .probe tag) (he : s.entry k tag = some e) :
    s.offerWindow k n w = (s.modEngine k fun g => { g with
      windows := g.windows ++
        [{ round := n, kind := .probe tag e.serial e.occupied, opening := w.opening, width := w.width }]
      bookedProbe := some (s.round + 1, tag) }).modEntry k tag fun e => e.owe .probe := by
  simp only [State.offerWindow, h, he]

theorem State.offerWindow_of_vacant (n : Round) {w : PlanWindow} (h : w.kind = .probe tag) (he : s.entry k tag = none) :
    s.offerWindow k n w = s := by
  simp only [State.offerWindow, h, he]

theorem State.offerWindow_engine (n : Round) (w : PlanWindow) :
    ∃ g : Engine, (s.offerWindow k n w).tree k = { s.tree k with engine := g } := by
  cases hk : w.kind with
  | call =>
    rw [State.offerWindow_of_call n hk, State.modEngine_tree]
    exact ⟨_, rfl⟩
  | probe a =>
    cases he : s.entry k a with
    | none =>
      rw [State.offerWindow_of_vacant n hk he]
      exact ⟨(s.tree k).engine, rfl⟩
    | some e =>
      rw [State.offerWindow_of_probe n hk he, State.tree_of_trees (State.modEntry_trees ..), State.modEngine_tree]
      exact ⟨_, rfl⟩

/-- Of the entries, only the one probed changes: it owes PROBE. -/
theorem State.offerWindow_entry (n : Round) {w : PlanWindow} (hw : ∀ a, w.kind = .probe a → tagOk a = true)
    (h : tagOk tag = true) : (s.offerWindow k n w).entry j tag =
      if j = k ∧ w.kind = .probe tag then (s.entry j tag).map fun e => e.owe .probe else s.entry j tag := by
  cases hk : w.kind with
  | call =>
    rw [State.offerWindow_of_call n hk, if_neg fun hc => nomatch hc.2]
    rfl
  | probe a =>
    have hsame : (WindowKind.probe a = .probe tag) ↔ tag = a := ⟨fun h => by cases h; rfl, fun h => h ▸ rfl⟩
    simp only [hsame]
    cases he : s.entry k a with
    | none =>
      rw [State.offerWindow_of_vacant n hk he]
      split
      · rename_i hc
        rw [hc.1, hc.2, he]
        rfl
      · rfl
    | some e =>
      rw [State.offerWindow_of_probe n hk he, State.modEntry_entry_iff h (hw a hk)]
      rfl

/-! ## The entries of a build (R104) -/

/-- What a build makes of an entry of its tree: that of a candidate of stages B to E takes what the stages give. -/
def State.updated (s : State) (k : TreeId) (tag : Nat) (e : Entry) : Entry :=
  ((s.staged k).1.find? fun y => y.tag = tag && !y.greeting).elim e fun y => y.update (s.round + 2) e

theorem State.placed_eq : s.placed k =
    (s.modTree k fun x => { x with plans := x.plans ++ [s.builtRecord k], lead := (s.staged k).2 }).modTreeEntries k
      (s.updated k) := by
  refine congrArg (State.modTreeEntries _ k) (funext fun tag => funext fun e => ?_)
  rw [State.updated]
  split <;> rename_i h <;> rw [h] <;> rfl

theorem State.placed_entry (h : tagOk tag = true) : (s.placed k).entry k tag = (s.entry k tag).map (s.updated k tag) := by
  rw [State.placed_eq, State.modTreeEntries_entry _ _ h]
  rfl

theorem State.placed_entry_ne (h : tagOk tag = true) (hj : j ≠ k) : (s.placed k).entry j tag = s.entry j tag := by
  rw [State.placed_eq, State.modTreeEntries_entry_ne _ h hj]
  rfl

/-! ## The candidates of a tree (R95) -/

theorem State.mem_treeEntries_iff (hw : Store.Wf s.roster) :
    (tag, e) ∈ s.treeEntries k ↔ tagOk tag = true ∧ s.entry k tag = some e := by
  constructor
  · intro h
    refine ⟨State.treeEntries_tagOk h, ?_⟩
    rw [State.treeEntries_eq hw k] at h
    obtain ⟨tag', -, hx⟩ := List.mem_filterMap.1 h
    obtain ⟨e', he, hpair⟩ := Option.map_eq_some_iff.1 hx
    cases hpair
    exact he
  · rintro ⟨htag, he⟩
    obtain ⟨htree, hslot, -⟩ := slot_of_slotOf (t := k) htag
    exact State.mem_treeEntries.2 ⟨_, Store.mem_of_read he, htree, hslot⟩

theorem candidateOf_cases {x : Cand} (h : candidateOf tag e = some x) : e.hushed = false ∧ e.owed.wake = false ∧
    x.tag = tag ∧ x.occupied = e.occupied ∧ x.prior = 0 ∧ x.extra = 0 ∧
    ((e.state = .timed ∧ e.owed.assign = false ∧ x.greeting = true ∧ x.c = 0 ∧ x.peak = 0) ∨
      (e.state = .active ∧ x.greeting = false ∧ x.c = e.contract.c ∧ x.peak = if e.capped then e.contract.c else e.contract.p)) := by
  unfold candidateOf at h
  split at h
  · cases h
  · rename_i hquiet
    obtain ⟨hh, hw⟩ := not_or.1 hquiet
    refine ⟨Bool.eq_false_iff.2 hh, Bool.eq_false_iff.2 hw, ?_⟩
    split at h
    · rename_i f hf
      split at h
      · cases h
      · rename_i ha
        cases h
        exact ⟨rfl, rfl, rfl, rfl, .inl ⟨by simp [Entry.state, hf], Bool.eq_false_iff.2 ha, rfl, rfl, rfl⟩⟩
    · rename_i f hf
      cases h
      exact ⟨rfl, rfl, rfl, rfl, .inr ⟨by simp [Entry.state, hf], rfl, rfl, rfl⟩⟩
    · cases h

theorem State.mem_candidatesOf (hw : Store.Wf s.roster) {x : Cand} (h : x ∈ s.candidatesOf k) :
    ∃ e, tagOk x.tag = true ∧ s.entry k x.tag = some e ∧ candidateOf x.tag e = some x := by
  obtain ⟨⟨tag, e⟩, hmem, hx⟩ := List.mem_filterMap.1 h
  obtain ⟨htag, he⟩ := (State.mem_treeEntries_iff hw).1 hmem
  rw [candidateOf_tag hx]
  exact ⟨e, htag, he, hx⟩

theorem State.candidatesOf_pairwise (hw : Store.Wf s.roster) (k : TreeId) :
    (s.candidatesOf k).Pairwise fun x y => x.tag < y.tag := by
  refine (State.treeEntries_pairwise hw k).filterMap _ fun a b hab x hx y hy => ?_
  rw [candidateOf_tag hx, candidateOf_tag hy]
  exact hab

theorem State.candidatesOf_ascending (hw : Store.Wf s.roster) (k : TreeId) : ((s.candidatesOf k).map Cand.tag).Pairwise (· < ·) :=
  List.pairwise_map.2 (State.candidatesOf_pairwise hw k)

theorem State.candidatesOf_fresh (h : ∀ x ∈ s.roster, x.2.contract.c ≤ x.2.contract.p) : ∀ x ∈ s.candidatesOf k, x.Fresh := by
  intro x hx
  obtain ⟨⟨tag, e⟩, hmem, hc⟩ := List.mem_filterMap.1 hx
  obtain ⟨n, hroster, -, -⟩ := State.mem_treeEntries.1 hmem
  have hcp : e.contract.c ≤ e.contract.p := h _ hroster
  obtain ⟨-, -, -, -, hprior, hextra, ⟨-, -, -, hc, hp⟩ | ⟨-, -, hc, hp⟩⟩ := candidateOf_cases hc
  · exact ⟨hprior, hextra, by omega⟩
  · refine ⟨hprior, hextra, ?_⟩
    rw [hc, hp]
    split
    · exact Nat.le_refl _
    · exact hcp

/-- What the stages give a tree's candidates (R96 to R103). -/
theorem State.staged_shares (hw : Store.Wf s.roster) (h : ∀ x ∈ s.roster, x.2.contract.c ≤ x.2.contract.p) :
    Shares (s.tree k).settings.overhead (s.candidatesOf k) (roundQuanta - s.windowQuanta k) (s.staged k).1 :=
  runStages_spec (b := s.buildSetting k) (State.candidatesOf_fresh h) ((State.candidatesOf_ascending hw k).imp Nat.ne_of_lt) _ _

theorem State.staged_ascending (hs : Shares H (s.candidatesOf k) n (s.staged k).1) (hw : Store.Wf s.roster) :
    ((s.staged k).1.map Cand.tag).Pairwise (· < ·) := by
  rw [map_tag_of_identity hs.identity]
  exact State.candidatesOf_ascending hw k

/-- A candidate after the stages is a home of its tree that may be granted light (R95). -/
theorem State.mem_staged (hs : Shares H (s.candidatesOf k) n (s.staged k).1) (hw : Store.Wf s.roster) {y : Cand}
    (h : y ∈ (s.staged k).1) : ∃ e, tagOk y.tag = true ∧ s.entry k y.tag = some e ∧ e.hushed = false ∧ e.owed.wake = false ∧
      y.occupied = e.occupied ∧ ((e.state = .timed ∧ e.owed.assign = false ∧ y.greeting = true ∧ y.payload ≤ 1) ∨
        (e.state = .active ∧ y.greeting = false ∧ y.payload ≤ max 1 (if e.capped then e.contract.c else e.contract.p))) := by
  obtain ⟨x, hx, hsame⟩ := List.mem_map.1 (hs.identity ▸ List.mem_map_of_mem (f := Cand.identity) h)
  simp only [Cand.identity, Prod.mk.injEq] at hsame
  obtain ⟨htagEq, hocc, hgreet, hc, hpeak⟩ := hsame
  obtain ⟨e, htag, he, hcand⟩ := State.mem_candidatesOf hw hx
  have hserved := hs.served y h
  rw [Cand.Served] at hserved
  obtain ⟨hh, hwake, -, hocc', -, -, hkind⟩ := candidateOf_cases hcand
  rw [htagEq] at htag he
  refine ⟨e, htag, he, hh, hwake, hocc.symm.trans hocc', ?_⟩
  obtain ⟨hstate, hassign, hg, -, -⟩ | ⟨hstate, hg, -, hp⟩ := hkind
  · rw [← hgreet, hg, if_pos rfl] at hserved
    exact .inl ⟨hstate, hassign, hgreet ▸ hg, hserved⟩
  · rw [← hgreet, hg, if_neg Bool.false_ne_true, ← hpeak, hp] at hserved
    exact .inr ⟨hstate, hgreet ▸ hg, hserved⟩

/-! ## What a build makes of the entries (R104) -/

theorem State.updated_of_mem (hs : Shares H (s.candidatesOf k) n (s.staged k).1) (hw : Store.Wf s.roster) {y : Cand}
    (h : y ∈ (s.staged k).1) (hg : y.greeting = false) (e : Entry) : s.updated k y.tag e = y.update (s.round + 2) e := by
  have hfind : ((s.staged k).1.find? fun z => z.tag = y.tag && !z.greeting) = some y := by
    have hnodup := (State.staged_ascending hs hw).imp Nat.ne_of_lt
    have hone := find_tag_of_mem hnodup h
    have hall : ∀ z ∈ (s.staged k).1, (decide (z.tag = y.tag) && !z.greeting) = decide (z.tag = y.tag) := fun z hz => by
      by_cases heq : z.tag = y.tag
      · rw [tag_inj hnodup hz h heq, hg, Bool.not_false, Bool.and_true]
      · rw [decide_eq_false heq, Bool.false_and]
    rw [← hone]
    exact List.find?_congr hall
  rw [State.updated, hfind]
  rfl

/-- An entry that is no candidate of stages B to E stays. -/
theorem State.updated_of_quiet (hs : Shares H (s.candidatesOf k) n (s.staged k).1) (hw : Store.Wf s.roster)
    (he : s.entry k tag = some e) (h : e.state ≠ .active ∨ e.hushed = true ∨ e.owed.wake = true) : s.updated k tag e = e := by
  have hfind : ((s.staged k).1.find? fun z => z.tag = tag && !z.greeting) = none := List.find?_eq_none.2 fun y hy hc => by
    simp only [Bool.and_eq_true, decide_eq_true_eq, Bool.not_eq_true'] at hc
    obtain ⟨htag, hg⟩ := hc
    obtain ⟨e', -, he', hh, hwake, -, hkind⟩ := State.mem_staged hs hw hy
    rw [htag, he] at he'
    cases he'
    obtain ⟨-, -, hg', -⟩ | ⟨hstate, -, -⟩ := hkind
    · exact absurd (hg.symm.trans hg') Bool.false_ne_true
    · simp [hstate, hh, hwake] at h
  rw [State.updated, hfind]
  rfl

/-! ## The window chosen (R44) -/

theorem Engine.names_iff (g : Engine) (tag : Nat) (occupied : Round) :
    g.names tag occupied = false ↔ ∀ w ∈ g.windows, ∀ x : Serial, w.kind ≠ .probe tag x occupied := by
  simp only [Engine.names, List.any_eq_false]
  refine forall₂_congr fun w _ => ?_
  cases w.kind with
  | call => simp
  | probe tag' x occupied' => simp

theorem State.mem_eligible {heard : Round} : (tag, heard) ∈ s.eligible k ↔ ∃ (e : Entry) (f : Heard), (tag, e) ∈ s.treeEntries k ∧
    e.body = .heard f ∧ f.heardRound = heard ∧
    ∀ w ∈ (s.tree k).engine.windows, ∀ x : Serial, w.kind ≠ .probe tag x e.occupied := by
  simp only [State.eligible, List.mem_filterMap, ← Engine.names_iff, Prod.exists]
  constructor
  · rintro ⟨tag', e, hmem, hx⟩
    cases hb : e.body with
    | heard f =>
      simp only [hb] at hx
      split at hx
      · cases hx
      · cases hx
        exact ⟨e, f, hmem, hb, rfl, Bool.eq_false_iff.2 ‹_›⟩
    | _ =>
      simp only [hb] at hx
      cases hx
  · rintro ⟨e, f, hmem, hb, rfl, hnames⟩
    exact ⟨tag, e, hmem, by simp [hb, hnames]⟩

theorem oldestHeard_mem {l : List (Nat × Round)} {x : Nat × Round} (h : oldestHeard l = some x) : x ∈ l := by
  cases l with
  | nil => cases h
  | cons a rest =>
    rw [← Option.some.inj h]
    obtain he | hm := foldl_pick_mem (fun best x => laterThan best.2 x.2) rest a
    · rw [he]
      exact List.mem_cons_self
    · exact List.mem_cons_of_mem _ hm

/-- A PROBE is chosen of a HEARD entry alone. -/
theorem State.chooseWindow_heard (h : s.chooseWindow k = .window (.probe tag)) : ∃ heard, (tag, heard) ∈ s.eligible k := by
  unfold State.chooseWindow at h
  split at h
  · rename_i tag' n ho
    cases h
    exact ⟨n, oldestHeard_mem ho⟩
  · split at h <;> cases h

theorem State.scheduled_chosen : (s.scheduled k).chosen = some .noWindow ∨ (s.scheduled k).chosen = some (s.chooseWindow k) := by
  unfold State.scheduled
  simp only
  split
  · split
    · exact .inl rfl
    · exact .inr rfl
  · split
    · split
      · exact .inl rfl
      · exact .inr rfl
    · exact .inl rfl

/-- The window that a build places after its dark window (R10). -/
theorem planWindow_eq {chosen : Option WindowAnswer} {opening width : Nat} {w : PlanWindow}
    (h : planWindow chosen opening width = some w) : chosen = some (.window w.kind) ∧ w.opening = opening ∧ w.width = width := by
  unfold planWindow at h
  split at h
  · cases h
    exact ⟨rfl, rfl, rfl⟩
  · cases h

/-- A window with a PROBE probes a HEARD entry of its tree. -/
theorem State.chosenWindow_heard {w : PlanWindow} (h : (s.answered k).chosenWindow k = some w) (hk : w.kind = .probe tag) :
    ∃ heard, (tag, heard) ∈ s.eligible k := by
  obtain ⟨hchosen, -, -⟩ := planWindow_eq h
  rw [State.answered_tree, hk] at hchosen
  obtain hnone | hsome := s.scheduled_chosen (k := k)
  · rw [hnone] at hchosen
    cases hchosen
  · rw [hsome] at hchosen
    exact State.chooseWindow_heard (Option.some.inj hchosen)

/-! ## The build as a whole (R92 to R106) -/

/-- The build of a tree probes a home. -/
def State.Probes (s : State) (k : TreeId) (tag : Nat) : Prop := ∃ w, s.chosenWindow k = some w ∧ w.kind = .probe tag

theorem State.chosenWindow_tagOk {w : PlanWindow} (h : (s.answered k).chosenWindow k = some w) :
    ∀ a, w.kind = .probe a → tagOk a = true := fun a hk => by
  obtain ⟨heard, hmem⟩ := State.chosenWindow_heard h hk
  obtain ⟨e, f, hmem, -⟩ := State.mem_eligible.1 hmem
  exact State.treeEntries_tagOk hmem

theorem State.buildPlan_tree_of_running (h : (s.tree k).phase = .running) : ∃ g : Engine, (s.buildPlan k).tree k = { s.tree k with
    plans := (s.tree k).plans ++ [(s.answered k).builtRecord k]
    lead := ((s.answered k).staged k).2
    engine := { g with chosen := none }
    light := { s.cadenced k with darkAnswer := none } } := by
  have hfull : ∃ g : Engine, ((s.answered k).buildFull k).tree k = { ((s.answered k).placed k).tree k with engine := g } := by
    cases hw : (s.answered k).chosenWindow k with
    | none => exact ⟨_, congrArg (State.tree · k) (State.buildFull_of_none hw)⟩
    | some w =>
      rw [State.buildFull_of_some hw]
      exact State.offerWindow_engine _ w
  obtain ⟨g, hfull⟩ := hfull
  refine ⟨g, ?_⟩
  rw [State.buildPlan_of_running h, State.forgetAnswers, State.modTree_tree, hfull, State.placed_tree, State.answered_tree]

theorem State.buildPlan_tree_ne (hj : j ≠ k) : (s.buildPlan k).tree j = s.tree j := by
  unfold State.buildPlan
  split
  · rfl
  · rfl
  · exact State.modTree_tree_ne _ _ hj
  · simp only
    rw [State.modTree_tree_ne _ _ hj, State.buildFull_tree_ne hj]
    exact State.answered_tree_ne hj

theorem State.buildPlan_entry_of_running (h : (s.tree k).phase = .running) (htag : tagOk tag = true) :
    (j ≠ k → (s.buildPlan k).entry j tag = s.entry j tag) ∧
    (¬ (s.answered k).Probes k tag →
      (s.buildPlan k).entry k tag = (s.entry k tag).map ((s.answered k).updated k tag)) ∧
    ((s.answered k).Probes k tag →
      (s.buildPlan k).entry k tag = (s.entry k tag).map fun e => ((s.answered k).updated k tag e).owe .probe) := by
  have hforget : ∀ j, (s.buildPlan k).entry j tag = ((s.answered k).buildFull k).entry j tag := fun j => by
    rw [State.buildPlan_of_running h]
    rfl
  have hother : j ≠ k → ((s.answered k).placed k).entry j tag = s.entry j tag := fun hj =>
    (State.placed_entry_ne htag hj).trans State.answered_entry
  have hplaced : ((s.answered k).placed k).entry k tag = (s.entry k tag).map ((s.answered k).updated k tag) := by
    rw [State.placed_entry htag, State.answered_entry]
  rw [hforget, hforget]
  cases hw : (s.answered k).chosenWindow k with
  | none =>
    rw [State.buildFull_of_none hw]
    refine ⟨hother, fun _ => hplaced, fun ⟨w, hw', _⟩ => ?_⟩
    rw [hw] at hw'
    cases hw'
  | some w =>
    have hprobes : (s.answered k).Probes k tag ↔ w.kind = .probe tag := by
      refine ⟨fun ⟨w', hw', hk⟩ => ?_, fun hk => ⟨w, hw, hk⟩⟩
      rw [hw] at hw'
      cases hw'
      exact hk
    rw [State.buildFull_of_some hw, State.offerWindow_entry _ (State.chosenWindow_tagOk hw) htag,
      State.offerWindow_entry _ (State.chosenWindow_tagOk hw) htag, hprobes]
    refine ⟨fun hj => ?_, fun hno => ?_, fun hk => ?_⟩
    · rw [if_neg fun hc => hj hc.1, hother hj]
    · rw [if_neg fun hc => hno hc.2, hplaced]
    · rw [if_pos ⟨rfl, hk⟩, hplaced, Option.map_map]
      rfl

/-- The entry that a build probes is HEARD. -/
theorem State.Probes.heard (h : (s.answered k).Probes k tag) (hw : Store.Wf s.roster) (he : s.entry k tag = some e) :
    e.state = .heard := by
  obtain ⟨w, hwindow, hk⟩ := h
  obtain ⟨heard, hmem⟩ := State.chosenWindow_heard hwindow hk
  obtain ⟨e', f, hmem, hb, -⟩ := State.mem_eligible.1 hmem
  have he' := ((State.mem_treeEntries_iff hw).1 hmem).2
  rw [he] at he'
  cases he'
  simp [Entry.state, hb]

/-! ## The plan record (R105, R106) -/

theorem State.windowQuanta_le (h : (s.tree k).settings.inRange = true) : s.windowQuanta k ≤ roundQuanta := by
  obtain ⟨-, -, ⟨-, hcall⟩, -, ⟨-, hdark⟩, -⟩ := (Settings.inRange_iff _).1 h
  have hdarkWidth : (s.darkWidth k).getD 0 ≤ 64 := by
    unfold State.darkWidth
    split
    · exact hdark
    · exact Nat.zero_le _
  unfold State.windowQuanta
  cases hw : s.chosenWindow k with
  | none =>
    simp only [roundQuanta]
    omega
  | some w =>
    obtain ⟨-, -, hwidth⟩ := planWindow_eq hw
    simp only [roundQuanta]
    omega

theorem State.builtRecord_fits (hs : Shares (s.tree k).settings.overhead (s.candidatesOf k) (roundQuanta - s.windowQuanta k)
    (s.staged k).1) (hf : ∀ x ∈ s.candidatesOf k, x.Fresh) (h : (s.tree k).settings.inRange = true) :
    (s.builtRecord k).fits = true := by
  have hwithin := hs.within
  rw [used_of_fresh hf] at hwithin
  have hgrants := placeGrants_contiguous (H := (s.tree k).settings.overhead) (s.windowQuanta k) (s.staged k).1
    (by have := State.windowQuanta_le h; omega)
  cases hw : s.chosenWindow k with
  | none =>
    have hquanta : s.windowQuanta k = (s.darkWidth k).getD 0 := by simp only [State.windowQuanta, hw, Nat.add_zero]
    rw [hquanta] at hgrants
    simp only [PlanRecord.fits, State.builtRecord, hw, Bool.true_and, hquanta, hgrants]
  | some w =>
    obtain ⟨-, hopening, -⟩ := planWindow_eq hw
    have hquanta : s.windowQuanta k = w.opening + w.width := by simp only [State.windowQuanta, hw, hopening]
    rw [hquanta] at hgrants
    simp only [PlanRecord.fits, State.builtRecord, hw, hopening, beq_self_eq_true, Bool.true_and]
    rw [hquanta, ← hopening]
    exact hgrants

theorem entryMark_eq (e : Entry) : entryMark e =
    if e.state = .active then some (if e.hushed then .hushed else .inService)
    else if e.state = .fenced then some .fenced else none := by
  obtain ⟨_, _, _, _, _, _, body⟩ := e
  cases body <;> rfl

theorem State.read_treeEntries (hw : Store.Wf s.roster) (h : tagOk tag = true) :
    Store.read tag (s.treeEntries k) = s.entry k tag := by
  have hwf : Store.Wf (s.treeEntries k) := State.treeEntries_pairwise hw k
  cases he : s.entry k tag with
  | none =>
    refine Store.read_eq_none fun x hx htag => ?_
    rw [← htag, ((State.mem_treeEntries_iff hw).1 (show (x.1, x.2) ∈ _ from hx)).2] at he
    cases he
  | some e => exact Store.read_of_mem hwf ((State.mem_treeEntries_iff hw).2 ⟨h, he⟩)

theorem read_entryMarks {es : Store Entry} (hw : Store.Wf es) :
    Store.read tag (entryMarks es) = (Store.read tag es).bind entryMark := by
  induction es with
  | nil => rfl
  | cons x rest ih =>
    obtain ⟨a, e⟩ := x
    obtain ⟨hlt, hw⟩ := List.pairwise_cons.1 hw
    have ih : Store.read tag (rest.filterMap fun x => (entryMark x.2).map fun m => (x.1, m)) = _ := ih hw
    by_cases ha : tag = a
    · subst ha
      have hrest : Store.read tag rest = none := Store.read_eq_none fun x hx => Nat.ne_of_gt (hlt x hx)
      rw [hrest] at ih
      cases hm : entryMark e <;> simp [entryMarks, hm, Store.read_cons, ih]
    · cases hm : entryMark e <;> simp [entryMarks, hm, Store.read_cons, ha, ih]

theorem State.read_marks (hw : Store.Wf s.roster) (h : tagOk tag = true) :
    Store.read tag (entryMarks (s.treeEntries k)) = (s.entry k tag).bind entryMark := by
  rw [← State.read_treeEntries hw h]
  exact read_entryMarks (State.treeEntries_pairwise hw k)

/-- Each grant of a build goes to a home of the tree that may be granted light, within its peak (R95 to R105). -/
theorem State.builtRecord_grants (hs : Shares H (s.candidatesOf k) n (s.staged k).1) (hw : Store.Wf s.roster) :
    ∀ g ∈ (s.builtRecord k).grants, 1 ≤ g.payload ∧ g.length = g.payload + (s.tree k).settings.overhead ∧
      ∃ e : Entry, s.entry k g.tag = some e ∧ g.occupied = e.occupied ∧ e.hushed = false ∧ e.owed.wake = false ∧
        ((e.state = .timed ∧ e.owed.assign = false ∧ g.kind = .greeting ∧ g.payload = 1) ∨
          (e.state = .active ∧ g.kind ≠ .greeting ∧
            g.payload ≤ max 1 (if e.capped then e.contract.c else e.contract.p))) := by
  intro g hg
  obtain ⟨y, hy, hpayload, start, rfl⟩ := mem_placeGrants hg
  obtain ⟨e, -, he, hh, hwake, hocc, hkind⟩ := State.mem_staged hs hw hy
  have hsome : 1 ≤ y.payload := Nat.pos_of_ne_zero hpayload
  refine ⟨hsome, rfl, e, he, hocc, hh, hwake, ?_⟩
  obtain ⟨hstate, hassign, hgreet, hone⟩ | ⟨hstate, hgreet, hpeak⟩ := hkind
  · exact .inl ⟨hstate, hassign, if_pos hgreet, Nat.le_antisymm hone hsome⟩
  · refine .inr ⟨hstate, ?_, hpeak⟩
    simp only [Cand.kind, hgreet, Bool.false_eq_true, if_false]
    split <;> nofun

theorem Cand.update_active {y : Cand} {f : Active} (hf : e.body = .active f) (target : Round) :
    y.update target e = { e with body := .active { f with
      need := f.need - y.payload, credit := y.credit
      lastGranted := if 0 < y.payload then some target else f.lastGranted } } := by
  simp only [Cand.update, hf]

/-- Settles O41: the record is that of the stages, which serve each candidate within its peak and all within the capacity; the
entries are what the stages and the window make of them. -/
theorem builtPlanFits : Obligations.BuiltPlanFits := by
  intro s k hrunning hrange hcanonical hcp t x
  obtain ⟨g, htree⟩ := State.buildPlan_tree_of_running hrunning
  have hentry := fun (j : TreeId) {tag : Nat} (htag : tagOk tag = true) =>
    State.buildPlan_entry_of_running (j := j) hrunning htag
  generalize hu : s.answered k = u at htree hentry
  have hround : u.round = s.round := hu ▸ State.answered_round
  have hroster : u.roster = s.roster := hu ▸ State.answered_roster
  have hutree : u.tree k = { s.tree k with engine := s.scheduled k, light := s.cadenced k } := hu ▸ State.answered_tree
  have hsettings : (u.tree k).settings = x := by rw [hutree]
  have huentry : ∀ tag, u.entry k tag = s.entry k tag := State.entry_of_roster hroster k
  have hw : Store.Wf u.roster := hroster ▸ hcanonical.1
  have hcp : ∀ y ∈ u.roster, y.2.contract.c ≤ y.2.contract.p := hroster ▸ hcp
  have hshares := State.staged_shares (k := k) hw hcp
  have hquiet : ∀ {tag e}, s.entry k tag = some e → e.state ≠ .active ∨ e.hushed = true ∨ e.owed.wake = true →
      u.updated k tag e = e := fun he hq => State.updated_of_quiet hshares hw ((huentry _).trans he) hq
  have hheard : ∀ {tag e}, u.Probes k tag → s.entry k tag = some e → e.state = .heard := fun hp he => by
    subst hu
    exact hp.heard hcanonical.1 he
  refine ⟨u.builtRecord k, by rw [htree], congrArg (· + 2) hround, rfl, ?_, ?_, ?_, ?_, fun tag htag => ?_, fun j tag htag hj => ?_⟩
  · exact State.builtRecord_fits hshares (State.candidatesOf_fresh hcp) (hsettings ▸ hrange)
  · exact List.pairwise_map.1 ((State.staged_ascending hshares hw).sublist (placeGrants_tags _ _))
  · intro grant hgrant
    have hone := State.builtRecord_grants hshares hw grant hgrant
    rwa [hsettings, huentry] at hone
  · intro windows cands stages
    have hset : u.buildSetting k =
        { overhead := x.overhead, minBurst := x.minBurst, poll := x.poll, target := s.round + 2 } := by
      rw [State.buildSetting, hsettings, hround]
    have hlead : (u.tree k).lead = (s.tree k).lead := by rw [hutree]
    have hcands : u.candidatesOf k = cands := by rw [State.candidatesOf, State.treeEntries_of_roster hroster]
    have hstages : u.staged k = stages := by
      rw [State.staged, hset, hlead, hcands]
      rfl
    rw [← hstages]
    refine ⟨placeGrants_map _ _, by rw [htree], fun y hy e f he hf => ?_⟩
    obtain ⟨e', htag, he', -, -, -, hkind⟩ := State.mem_staged hshares hw hy
    rw [huentry, he] at he'
    cases he'
    have hactive : e.state = .active := by simp [Entry.state, hf]
    have hgreet : y.greeting = false := by
      obtain ⟨hstate, -⟩ | ⟨-, hgreet, -⟩ := hkind
      · rw [hactive] at hstate
        cases hstate
      · exact hgreet
    have hnot : ¬ u.Probes k y.tag := fun hp => by
      have hstate := hheard hp he
      rw [hactive] at hstate
      cases hstate
    rw [(hentry k htag).2.1 hnot, he, Option.map_some, State.updated_of_mem hshares hw hy hgreet, Cand.update_active hf, hround]
    rfl
  · refine ⟨fun he => ⟨?_, ?_⟩, fun e he => ⟨?_, fun hq => ?_⟩⟩
    · rw [State.builtRecord, State.read_marks hw htag, huentry, he]
      rfl
    · by_cases hp : u.Probes k tag
      · rw [(hentry k htag).2.2 hp, he]
        rfl
      · rw [(hentry k htag).2.1 hp, he]
        rfl
    · rw [State.builtRecord, State.read_marks hw htag, huentry, he]
      exact entryMark_eq e
    · by_cases hp : u.Probes k tag
      · refine .inr ⟨hheard hp he, ?_⟩
        rw [(hentry k htag).2.2 hp, he, Option.map_some, hquiet he hq]
      · refine .inl ?_
        rw [(hentry k htag).2.1 hp, he, Option.map_some, hquiet he hq]
  · exact ⟨(hentry j htag).1 hj, State.buildPlan_tree_ne hj⟩

end Sys2Proof.Machine
end

section
/-! PROOFS. The cut of a RUNNING tree on which nothing waits: what the enrolment engine and the light supervisor answer (O39). -/

namespace Sys2Proof.Machine

variable {s s' s'' : State} {k j : TreeId} {tag n : Nat} {e : Entry}

/-! ## The cut (R11, R92) -/

theorem State.pass_of_empty (h : s.queue = []) : s.pass = s := by
  have hself : { s with queue := [] } = s := by rw [← h]
  simp only [State.pass, h, List.filter_nil, List.append_nil, List.length_nil, passAll]
  exact hself

theorem State.heldOrder_of_free (h : ∀ p, (s.port p).inProgress = none) : s.heldOrder = [] := by
  simp only [State.heldOrder, allPorts, List.foldl_cons, List.foldl_nil, h, List.map_nil]

theorem State.expireHeld_of_free {p : Port} (h : (s.port p).inProgress = none) : s.expireHeld p = s := by
  simp only [State.expireHeld, h]

/-- With no request held, nothing follows the pass (R117, R118). -/
theorem State.openCut_of_free (h : ∀ p, (s.passed.port p).inProgress = none) : s.openCut = s.passed := by
  have hoffered : s.offered = s.passed := by rw [State.offered, State.heldOrder_of_free h, List.foldl_nil]
  simp only [State.openCut, hoffered, allPorts, List.foldl_cons, List.foldl_nil, State.expireHeld_of_free (h _)]

theorem State.openCut_of_idle (hq : s.queue = []) (h : ∀ p, (s.port p).inProgress = none) :
    s.openCut = { s with cutTaken := true } := by
  have hpassed : s.passed = { s with cutTaken := true } := State.pass_of_empty hq
  rw [State.openCut_of_free (by rwa [hpassed]), hpassed]

/-! ## What the builds of other trees leave -/

/-- What a build changes: the trees and the roster, and of another tree neither the tree nor its entries. -/
structure BuildKept (k : TreeId) (s s' : State) : Prop where
  frame : s' = { s with trees := s'.trees, roster := s'.roster }
  tree : s'.tree k = s.tree k
  wf : Store.Wf s.roster → Store.Wf s'.roster
  entry : ∀ tag, tagOk tag = true → s'.entry k tag = s.entry k tag

theorem BuildKept.refl (k : TreeId) (s : State) : BuildKept k s s := ⟨rfl, rfl, id, fun _ _ => rfl⟩

theorem BuildKept.trans (h : BuildKept k s s') (h' : BuildKept k s' s'') : BuildKept k s s'' where
  frame := h'.frame.trans (congrArg (fun u : State => { u with trees := s''.trees, roster := s''.roster }) h.frame)
  tree := h'.tree.trans h.tree
  wf := h'.wf ∘ h.wf
  entry tag htag := (h'.entry tag htag).trans (h.entry tag htag)

theorem BuildKept.treeEntries (h : BuildKept k s s') (hw : Store.Wf s.roster) : s'.treeEntries k = s.treeEntries k := by
  rw [State.treeEntries_eq hw, State.treeEntries_eq (h.wf hw)]
  refine List.filterMap_congr fun tag htag => ?_
  have hrange := List.mem_range'_1.1 htag
  rw [h.entry tag (tagOk_eq_true_iff.2 (by omega))]

theorem State.offerWindow_frame (n : Round) (w : PlanWindow) :
    s.offerWindow k n w = { s with trees := (s.offerWindow k n w).trees, roster := (s.offerWindow k n w).roster } ∧
      (Store.Wf s.roster → Store.Wf (s.offerWindow k n w).roster) := by
  cases hk : w.kind with
  | call =>
    rw [State.offerWindow_of_call n hk]
    exact ⟨rfl, id⟩
  | probe a =>
    cases he : s.entry k a with
    | none =>
      rw [State.offerWindow_of_vacant n hk he]
      exact ⟨rfl, id⟩
    | some e =>
      rw [State.offerWindow_of_probe n hk he]
      exact ⟨rfl, Store.wf_modify (slotOf k a) (fun e : Entry => e.owe .probe) s.roster⟩

theorem State.placed_frame :
    s.placed k = { s with trees := (s.placed k).trees, roster := (s.placed k).roster } ∧
      (Store.Wf s.roster → Store.Wf (s.placed k).roster) := by
  rw [State.placed_eq]
  refine ⟨rfl, Store.wf_map _ (fun x => ?_) _⟩
  split <;> rfl

theorem State.buildFull_frame :
    s.buildFull k = { s with trees := (s.buildFull k).trees, roster := (s.buildFull k).roster } ∧
      (Store.Wf s.roster → Store.Wf (s.buildFull k).roster) := by
  obtain ⟨hframe, hwf⟩ := State.placed_frame (s := s) (k := k)
  cases hw : s.chosenWindow k with
  | none =>
    rw [State.buildFull_of_none hw]
    exact ⟨hframe, hwf⟩
  | some w =>
    rw [State.buildFull_of_some hw]
    obtain ⟨hframe', hwf'⟩ := State.offerWindow_frame (s := s.placed k) (k := k) (s.round + 2) w
    exact ⟨hframe'.trans (congrArg (fun u : State => { u with
      trees := ((s.placed k).offerWindow k (s.round + 2) w).trees
      roster := ((s.placed k).offerWindow k (s.round + 2) w).roster }) hframe), hwf' ∘ hwf⟩

theorem State.buildPlan_frame (s : State) (k : TreeId) :
    s.buildPlan k = { s with trees := (s.buildPlan k).trees, roster := (s.buildPlan k).roster } ∧
      (Store.Wf s.roster → Store.Wf (s.buildPlan k).roster) := by
  unfold State.buildPlan
  split
  · exact ⟨rfl, id⟩
  · exact ⟨rfl, id⟩
  · exact ⟨rfl, id⟩
  · obtain ⟨hframe, hwf⟩ := State.buildFull_frame (s := s.answered k) (k := k)
    rw [State.answered_eq] at hframe hwf
    have hanswered : (s.scheduleAct k).cadenceAct k = _ := State.answered_eq (s := s) (k := k)
    simp only [hanswered]
    exact ⟨congrArg (fun u : State => u.forgetAnswers k) hframe, hwf⟩

theorem BuildKept.buildPlan (hj : j ≠ k) (s : State) : BuildKept k s (s.buildPlan j) where
  frame := (s.buildPlan_frame j).1
  tree := State.buildPlan_tree_ne (Ne.symm hj)
  wf := (s.buildPlan_frame j).2
  entry tag htag := by
    cases hp : (s.tree j).phase with
    | running => exact (State.buildPlan_entry_of_running hp htag).1 (Ne.symm hj)
    | _ => simp only [State.buildPlan, hp] <;> rfl

/-- The builds, seen from one tree. -/
theorem builds_around (s : State) (k : TreeId) :
    ∃ u, BuildKept k s u ∧ BuildKept k (u.buildPlan k) (allFour.foldl State.buildPlan s) :=
  foldl_around k (.refl k) .trans (fun u _ hj => .buildPlan hj u) s

/-! ## The engine after a build (R43 to R46) -/

theorem State.buildPlan_engine (h : (s.tree k).phase = .running) :
    ((s.buildPlan k).tree k).engine = { (((s.answered k).buildFull k).tree k).engine with chosen := none } := by
  rw [State.buildPlan_of_running h, State.forgetAnswers, State.modTree_tree]

theorem State.placed_engine : ((s.placed k).tree k).engine = (s.tree k).engine := by rw [State.placed_tree]

theorem State.buildPlan_engine_of_none (h : (s.tree k).phase = .running) (hw : (s.answered k).chosenWindow k = none) :
    ((s.buildPlan k).tree k).engine = { s.scheduled k with chosen := none } := by
  rw [State.buildPlan_engine h, State.buildFull_of_none hw, State.placed_engine, State.answered_tree]

theorem State.buildPlan_engine_of_call (h : (s.tree k).phase = .running) {w : PlanWindow}
    (hw : (s.answered k).chosenWindow k = some w) (hk : w.kind = .call) :
    ((s.buildPlan k).tree k).engine = { s.scheduled k with
      windows := (s.scheduled k).windows ++ [{ round := s.round + 2, kind := .call, opening := w.opening, width := w.width }]
      chosen := none } := by
  rw [State.buildPlan_engine h, State.buildFull_of_some hw, State.offerWindow_of_call _ hk, State.modEngine_tree,
    State.placed_engine, State.answered_tree, State.answered_round]

theorem State.buildPlan_engine_of_probe (h : (s.tree k).phase = .running) {w : PlanWindow}
    (hw : (s.answered k).chosenWindow k = some w) (hk : w.kind = .probe tag) (htag : tagOk tag = true)
    (he : s.entry k tag = some e) :
    ((s.buildPlan k).tree k).engine = { s.scheduled k with
      windows := (s.scheduled k).windows ++
        [{ round := s.round + 2, kind := .probe tag e.serial e.occupied, opening := w.opening, width := w.width }]
      bookedProbe := some (s.round + 1, tag)
      chosen := none } := by
  have hround : ((s.answered k).placed k).round = s.round := State.answered_round
  have hupdated : ∃ e', (s.answered k).updated k tag e = e' ∧ e'.serial = e.serial ∧ e'.occupied = e.occupied := by
    refine ⟨_, rfl, ?_⟩
    rw [State.updated]
    cases (s.answered k).staged k |>.1.find? fun y => y.tag = tag && !y.greeting with
    | none => exact ⟨rfl, rfl⟩
    | some y =>
      simp only [Option.elim, Cand.update]
      split <;> exact ⟨rfl, rfl⟩
  obtain ⟨e', heq, hserial, hoccupied⟩ := hupdated
  have hplaced : ((s.answered k).placed k).entry k tag = some e' := by
    rw [State.placed_entry htag, State.answered_entry, he, Option.map_some, heq]
  rw [State.buildPlan_engine h, State.buildFull_of_some hw, State.offerWindow_of_probe _ hk hplaced,
    State.tree_of_trees (State.modEntry_trees ..), State.modEngine_tree, State.placed_engine, State.answered_tree, hround,
    State.answered_round, hserial, hoccupied]

/-! ## The answers at a cut -/

theorem Light.darkDue_iff (l : Light) (n : Nat) :
    l.darkDue n = true ↔ l.suspicion = .watch ∨ (∃ h : Hunt, l.suspicion = .hunt h) ∨ n ≤ l.cadence + 1 := by
  cases hs : l.suspicion <;> simp [Light.darkDue, hs]

theorem State.answered_darkWidth : (s.answered k).darkWidth k =
    if (s.tree k).light.darkDue (s.tree k).settings.kDark then some (s.tree k).settings.wDark else none := by
  rw [State.darkWidth, State.answered_tree]
  have hanswer : (s.cadenced k).darkAnswer = some ((s.tree k).light.darkDue (s.tree k).settings.kDark) := by
    simp only [State.cadenced]
    split
    · rename_i h
      rw [h]
    · rename_i h
      rw [Bool.eq_false_iff.2 h]
  simp only [hanswer, Option.some.injEq]

theorem State.answered_chosenWindow : (s.answered k).chosenWindow k =
    planWindow (s.scheduled k).chosen (((s.answered k).darkWidth k).getD 0) (s.tree k).settings.wCall := by
  rw [State.chosenWindow, State.answered_tree]

/-- The supervisor's register after a cut (R126). -/
theorem State.cadenced_eq : { s.cadenced k with darkAnswer := none } = { (s.tree k).light with
    cadence := if (s.tree k).light.darkDue (s.tree k).settings.kDark then 0 else (s.tree k).light.cadence + 1
    darkAnswer := none } := by
  simp only [State.cadenced]
  split <;> rfl

/-- A cut that has the engine choose its window (R43, R45). -/
def State.choosing (s : State) (k : TreeId) : Prop :=
  ((s.tree k).engine.deferred = true ∨ (s.tree k).settings.kCall ≤ (s.tree k).engine.count + 1) ∧ s.hunting k = false

theorem State.scheduled_of_choosing (h : s.choosing k) :
    s.scheduled k = { (s.tree k).engine with count := 0, deferred := false, chosen := some (s.chooseWindow k) } := by
  obtain ⟨hdue, hhunt⟩ := h
  simp only [State.scheduled, hhunt, Bool.false_eq_true, if_false]
  cases hd : (s.tree k).engine.deferred with
  | true => simp only [if_true]
  | false =>
    rw [hd] at hdue
    have hreaches : (s.tree k).settings.kCall ≤ (s.tree k).engine.count + 1 := by simpa using hdue
    rw [if_neg Bool.false_ne_true, if_pos hreaches]

theorem State.scheduled_of_deferred (hd : (s.tree k).engine.deferred = true) (hh : s.hunting k = true) :
    s.scheduled k = { (s.tree k).engine with chosen := some .noWindow } := by
  simp only [State.scheduled, hd, hh, if_true]

theorem State.scheduled_of_counting (hd : (s.tree k).engine.deferred = false)
    (hr : ¬ (s.tree k).settings.kCall ≤ (s.tree k).engine.count + 1) :
    s.scheduled k = { (s.tree k).engine with count := (s.tree k).engine.count + 1, chosen := some .noWindow } := by
  simp only [State.scheduled, hd, Bool.false_eq_true, if_false, if_neg hr]

theorem State.scheduled_of_defers (hd : (s.tree k).engine.deferred = false)
    (hr : (s.tree k).settings.kCall ≤ (s.tree k).engine.count + 1) (hh : s.hunting k = true) :
    s.scheduled k = { (s.tree k).engine with count := 0, deferred := true, chosen := some .noWindow } := by
  simp only [State.scheduled, hd, Bool.false_eq_true, if_false, if_pos hr, hh, if_true]

/-! ## The choice (R44) -/

theorem foldl_keep {α : Type} {f : α → α → Bool} {a : α} {l : List α} (h : ∀ x ∈ l, f a x = false) :
    l.foldl (fun best x => if f best x then x else best) a = a := by
  induction l with
  | nil => rfl
  | cons x rest ih =>
    obtain ⟨hx, hrest⟩ := List.forall_mem_cons.1 h
    rw [List.foldl_cons, hx, if_neg Bool.false_ne_true, ih hrest]

/-- The HEARD home that was heard before those of lower tag, and not after those of higher tag, is the oldest. -/
theorem oldestHeard_of_best {front back : List (Nat × Round)} {a : Nat × Round}
    (hfront : ∀ x ∈ front, laterThan x.2 a.2 = true) (hback : ∀ x ∈ back, laterThan a.2 x.2 = false) :
    oldestHeard (front ++ a :: back) = some a := by
  cases front with
  | nil => exact congrArg some (foldl_keep (f := fun best x : Nat × Round => laterThan best.2 x.2) hback)
  | cons y rest =>
    have hmem := oldestHeard_mem (l := y :: rest) rfl
    rw [List.cons_append, oldestHeard, List.foldl_append, List.foldl_cons, hfront _ hmem, if_pos rfl]
    exact congrArg some (foldl_keep (f := fun best x : Nat × Round => laterThan best.2 x.2) hback)

theorem State.eligible_pairwise (hw : Store.Wf s.roster) (k : TreeId) :
    (s.eligible k).Pairwise fun a b => a.1 < b.1 := by
  refine (State.treeEntries_pairwise hw k).filterMap _ fun a b hab x hx y hy => ?_
  have htag : ∀ {z : Nat × Entry} {x : Nat × Round}, (match z.2.body with
      | .heard f => if (s.tree k).engine.names z.1 z.2.occupied then none else some (z.1, f.heardRound)
      | _ => none) = some x → x.1 = z.1 := fun {z x} h => by
    split at h
    · split at h
      · cases h
      · cases h
        rfl
    · cases h
  rw [htag hx, htag hy]
  exact hab

theorem State.chooseWindow_of_best (hw : Store.Wf s.roster) {heard : Round} (h : (tag, heard) ∈ s.eligible k)
    (hbest : ∀ tag' heard', (tag', heard') ∈ s.eligible k → tag' ≠ tag →
      laterThan heard heard' = false ∧ (tag' < tag → laterThan heard' heard = true)) :
    s.chooseWindow k = .window (.probe tag) := by
  obtain ⟨front, back, hsplit⟩ := List.append_of_mem h
  have hpairwise := s.eligible_pairwise hw k
  rw [hsplit, List.pairwise_append, List.pairwise_cons] at hpairwise
  obtain ⟨-, ⟨hback, -⟩, hfront⟩ := hpairwise
  have holdest : oldestHeard (s.eligible k) = some (tag, heard) := by
    rw [hsplit]
    refine oldestHeard_of_best (fun x hx => ?_) fun x hx => ?_
    · have hlt : x.1 < tag := hfront x hx _ List.mem_cons_self
      exact (hbest x.1 x.2 (hsplit ▸ List.mem_append_left _ hx) (Nat.ne_of_lt hlt)).2 hlt
    · have hlt : tag < x.1 := hback x hx
      exact (hbest x.1 x.2 (hsplit ▸ List.mem_append_right _ (List.mem_cons_of_mem _ hx)) (Nat.ne_of_gt hlt)).1
  simp only [State.chooseWindow, holdest]

theorem State.chooseWindow_of_none (h : ∀ tag heard, (tag, heard) ∉ s.eligible k) :
    s.chooseWindow k = if (s.tree k).engine.calls then .window .call else .noWindow := by
  have hnil : s.eligible k = [] := List.eq_nil_iff_forall_not_mem.2 fun x => h x.1 x.2
  simp only [State.chooseWindow, hnil, oldestHeard]

/-! ## The plan record of the answers -/

/-- The register of windows and the booked PROBE after a build, and the window of its plan record, by what the engine chose. -/
structure EngineAnswers (s : State) (k : TreeId) (window : Option WindowKind) (record : List WindowRecord)
    (booked : Option (Round × Nat)) : Prop where
  engine : ((s.buildPlan k).tree k).engine = { s.scheduled k with
    windows := (s.scheduled k).windows ++ record, bookedProbe := booked, chosen := none }
  window : ((s.answered k).builtRecord k).window = window.map fun kind =>
    { kind := kind, opening := ((s.answered k).builtRecord k).dark.getD 0, width := (s.tree k).settings.wCall }

theorem engineAnswers_of_none (h : (s.tree k).phase = .running) (hc : (s.scheduled k).chosen = some .noWindow) :
    EngineAnswers s k none [] (s.scheduled k).bookedProbe := by
  have hwindow : (s.answered k).chosenWindow k = none := by
    rw [State.answered_chosenWindow, hc]
    rfl
  refine ⟨?_, hwindow⟩
  rw [State.buildPlan_engine_of_none h hwindow, List.append_nil]

theorem State.chosenWindow_of_window {kind : WindowKind} (hc : (s.scheduled k).chosen = some (.window kind)) :
    (s.answered k).chosenWindow k = some
      { kind := kind, opening := ((s.answered k).darkWidth k).getD 0, width := (s.tree k).settings.wCall } := by
  rw [State.answered_chosenWindow, hc]
  rfl

theorem engineAnswers_of_call (h : (s.tree k).phase = .running) (hc : (s.scheduled k).chosen = some (.window .call)) :
    EngineAnswers s k (some .call) [{ round := s.round + 2, kind := .call
                                      opening := ((s.answered k).builtRecord k).dark.getD 0
                                      width := (s.tree k).settings.wCall }] (s.scheduled k).bookedProbe := by
  have hwindow := State.chosenWindow_of_window hc
  refine ⟨?_, hwindow⟩
  rw [State.buildPlan_engine_of_call h hwindow rfl]
  rfl

theorem engineAnswers_of_probe (h : (s.tree k).phase = .running) (hc : (s.scheduled k).chosen = some (.window (.probe tag)))
    (htag : tagOk tag = true) (he : s.entry k tag = some e) :
    EngineAnswers s k (some (.probe tag)) [{ round := s.round + 2, kind := .probe tag e.serial e.occupied
                                             opening := ((s.answered k).builtRecord k).dark.getD 0
                                             width := (s.tree k).settings.wCall }] (some (s.round + 1, tag)) := by
  have hwindow := State.chosenWindow_of_window hc
  refine ⟨?_, hwindow⟩
  rw [State.buildPlan_engine_of_probe h hwindow rfl htag he]
  rfl

/-- The home that a build probes owes PROBE, and nothing else of it changes. -/
theorem State.buildPlan_probed (h : (s.tree k).phase = .running)
    (hc : (s.scheduled k).chosen = some (.window (.probe tag))) (htag : tagOk tag = true) (he : s.entry k tag = some e)
    {f : Heard} (hf : e.body = .heard f) : (s.buildPlan k).entry k tag = some (e.owe .probe) := by
  have hprobes : (s.answered k).Probes k tag := ⟨_, State.chosenWindow_of_window hc, rfl⟩
  have hupdated : (s.answered k).updated k tag e = e := by
    have hupdate : ∀ y : Cand, y.update ((s.answered k).round + 2) e = e := fun y => by simp only [Cand.update, hf]
    rw [State.updated]
    cases (s.answered k).staged k |>.1.find? fun y => y.tag = tag && !y.greeting with
    | none => rfl
    | some y => exact hupdate y
  rw [(State.buildPlan_entry_of_running (j := k) h htag).2.2 hprobes, he, Option.map_some, hupdated]

theorem State.cadenceDue_of_running (h : (s.tree k).phase = .running) :
    s.cadenceDue k = (s.tree k).light.darkDue (s.tree k).settings.kDark := by
  simp only [State.cadenceDue, h, decide_true, Bool.true_and]

theorem State.scheduleDue_of_running (h : (s.tree k).phase = .running) :
    s.scheduleDue k = true ↔ if (s.tree k).engine.deferred then s.hunting k = false
      else (s.tree k).settings.kCall ≤ (s.tree k).engine.count + 1 := by
  simp only [State.scheduleDue, h, decide_true, Bool.true_and]
  split
  · rw [Bool.not_eq_true']
  · rw [decide_eq_true_eq]

theorem exec_of_due {t : State} {due : Bool} (ht : s.takeCut = t) (h : due = true) :
    (.next (s.cutWhere due) : Host.Outcome State Fault Refusal) = .next t := by
  rw [h, ← ht]
  rfl

theorem exec_of_not_due {due : Bool} (h : ¬ due = true) :
    (.next (s.cutWhere due) : Host.Outcome State Fault Refusal) = .next s := by
  rw [Bool.not_eq_true] at h
  rw [h]
  rfl

/-- Settles O39: the builds of the other trees leave this tree and its entries, and its own build takes both answers into the plan
record. -/
theorem engineAndSupervisorAnswer : Obligations.EngineAndSupervisorAnswer := by
  intro s k hcut hqueue hfree hrunning hcanonical g l x hunt reaches darkDue eligible
  have hopen : s.openCut = { s with cutTaken := true } := State.openCut_of_idle hqueue hfree
  obtain ⟨u, hbefore, hafter⟩ := builds_around { s with cutTaken := true } k
  have htake : s.takeCut = allFour.foldl State.buildPlan { s with cutTaken := true } := by rw [State.takeCut_open _ hcut, hopen]
  generalize allFour.foldl State.buildPlan { s with cutTaken := true } = t at hafter htake
  have htree : u.tree k = s.tree k := hbefore.tree
  have hround : u.round = s.round := (congrArg State.round hbefore.frame :)
  have hw : Store.Wf u.roster := hbefore.wf hcanonical.1
  have hurunning : (u.tree k).phase = .running := htree ▸ hrunning
  have hentries : u.treeEntries k = s.treeEntries k := hbefore.treeEntries hcanonical.1
  have hhunt : ∀ v : State, v.tree k = s.tree k → (v.hunting k = true ↔ hunt) := fun v hv => by
    rw [State.hunting_iff, hv]
    rfl
  have hnotHunt : ∀ v : State, v.tree k = s.tree k → (v.hunting k = false ↔ ¬ hunt) := fun v hv => by
    rw [← hhunt v hv, Bool.not_eq_true]
  have heligible : ∀ tag heard, eligible tag heard ↔ (tag, heard) ∈ u.eligible k := fun tag heard => by
    rw [State.mem_eligible, hentries, htree]
  have hdue : l.darkDue x.kDark = true ↔ darkDue := l.darkDue_iff x.kDark
  have hcadence : s.openCut.cadenceDue k = true ↔ darkDue := by
    rw [hopen, State.cadenceDue_of_running (s := { s with cutTaken := true }) hrunning]
    exact hdue
  have hschedule : s.openCut.scheduleDue k = true ↔ if g.deferred then ¬ hunt else reaches := by
    rw [hopen, State.scheduleDue_of_running (s := { s with cutTaken := true }) hrunning, hnotHunt { s with cutTaken := true } rfl]
    rfl
  have hdark : ((u.answered k).builtRecord k).dark = if l.darkDue x.kDark then some x.wDark else none := by
    have hwidth := State.answered_darkWidth (s := u) (k := k)
    rwa [htree] at hwidth
  obtain ⟨g', hbuilt⟩ := State.buildPlan_tree_of_running hurunning
  have hlight : (t.tree k).light = { l with
      cadence := if l.darkDue x.kDark then 0 else l.cadence + 1, darkAnswer := none } := by
    rw [hafter.tree, hbuilt, State.cadenced_eq, htree]
  refine ⟨t, (u.answered k).builtRecord k, congrArg Host.Outcome.next htake, ?_, fun h => ?_, fun h => ?_,
    fun h => exec_of_due htake (hschedule.2 h), fun h => exec_of_not_due (mt hschedule.1 h), ?_⟩
  · rw [hafter.tree, hbuilt, htree]
  · rw [hdark, hlight, if_pos (hdue.2 h), if_pos (hdue.2 h)]
    exact ⟨rfl, rfl, exec_of_due htake (hcadence.2 h)⟩
  · rw [hdark, hlight, if_neg (mt hdue.1 h), if_neg (mt hdue.1 h)]
    exact ⟨rfl, rfl, exec_of_not_due (mt hcadence.1 h)⟩
  · intro engine
    have hengine : ∀ {count deferred chosen window record booked},
        u.scheduled k = { g with count := count, deferred := deferred, chosen := chosen } →
        EngineAnswers u k window record booked → engine count deferred window record booked := by
      intro count deferred chosen window record booked hscheduled hanswers
      have hwindow := hanswers.window
      rw [htree] at hwindow
      refine ⟨?_, hwindow⟩
      rw [hafter.tree, hanswers.engine, hscheduled]
    have hchoosing : g.deferred = true ∨ reaches → ¬ hunt →
        u.scheduled k = { g with count := 0, deferred := false, chosen := some (u.chooseWindow k) } := fun hr hh => by
      have hscheduled := State.scheduled_of_choosing (s := u) (k := k) ⟨htree ▸ hr, (hnotHunt u htree).2 hh⟩
      rwa [htree] at hscheduled
    have hquiet : ∀ {count deferred}, u.scheduled k =
        { g with count := count, deferred := deferred, chosen := some .noWindow } →
        engine count deferred none [] g.bookedProbe := fun {count deferred} hscheduled => by
      have hanswers := engineAnswers_of_none hurunning (by rw [hscheduled])
      rw [hscheduled] at hanswers
      exact hengine hscheduled hanswers
    refine ⟨fun hd hh => hquiet ?_, fun hd hr => hquiet ?_, fun hd hr hh => hquiet ?_, fun hr hh hnone => ?_, ?_⟩
    · have hscheduled := State.scheduled_of_deferred (s := u) (k := k) (htree ▸ hd) ((hhunt u htree).2 hh)
      rw [htree] at hscheduled
      exact hd ▸ hscheduled
    · have hscheduled := State.scheduled_of_counting (s := u) (k := k) (htree ▸ hd) (htree ▸ hr)
      rw [htree] at hscheduled
      exact hd ▸ hscheduled
    · have hscheduled := State.scheduled_of_defers (s := u) (k := k) (htree ▸ hd) (htree ▸ hr) ((hhunt u htree).2 hh)
      rwa [htree] at hscheduled
    · have hscheduled := hchoosing hr hh
      have hchoose := State.chooseWindow_of_none fun tag heard hc => hnone tag heard ((heligible tag heard).2 hc)
      rw [htree] at hchoose
      refine ⟨fun hcalls => hquiet ?_, fun hcalls => ?_⟩
      · rw [hscheduled, hchoose, if_neg (Bool.eq_false_iff.1 hcalls)]
      · rw [hchoose, if_pos hcalls] at hscheduled
        have hanswers := engineAnswers_of_call hurunning (by rw [hscheduled])
        rw [hscheduled, hround, htree] at hanswers
        exact hengine hscheduled hanswers
    · intro tag heard e hr hh hel hbest he
      have hscheduled := hchoosing hr hh
      have hel' := (heligible tag heard).1 hel
      rw [State.chooseWindow_of_best hw hel' fun tag' heard' h' => hbest tag' heard' ((heligible tag' heard').2 h')] at hscheduled
      obtain ⟨e', f, hmem, hf, -⟩ := hel
      obtain ⟨htag, he'⟩ := (State.mem_treeEntries_iff hcanonical.1).1 hmem
      rw [he] at he'
      cases he'
      have hue : u.entry k tag = some e := (hbefore.entry tag htag).trans he
      have hchosen : (u.scheduled k).chosen = some (.window (.probe tag)) := by rw [hscheduled]
      have hanswers := engineAnswers_of_probe hurunning hchosen htag hue
      rw [hround, htree] at hanswers
      refine ⟨hengine hscheduled hanswers, ?_⟩
      rw [hafter.entry tag htag]
      exact State.buildPlan_probed hurunning hchosen htag hue hf

end Sys2Proof.Machine
end

section
/-! PROOFS. What the blocks do at the pass of a cut leaves the queue, the slots and the plans (R113 to R116). -/

namespace Sys2Proof.Machine

variable {s s' s'' : State} {k j : TreeId} {tag n : Nat} {e : Entry}

/-! ## Operations that leave the queue -/

/-- What no change handed over at a cut touches of a tree. -/
def Tree.standing (x : Tree) : TreeState × Nat × List PlanRecord × Framer := (x.phase, x.settlingCount, x.plans, x.framer)

/-- What the pass of a cut leaves of the part: the slots and registers of its ports but for notices, what stands of each tree,
and everything outside the blocks that changes are handed to. -/
structure BlocksKept (s s' : State) : Prop where
  frame : s' = { s with
    trees := s'.trees, roster := s'.roster, meters := s'.meters, watches := s'.watches, ports := s'.ports, journal := s'.journal
    band := s'.band, queue := s'.queue }
  tree : ∀ k, (s'.tree k).standing = (s.tree k).standing
  port : ∀ p, s'.port p = { s.port p with notices := (s'.port p).notices, line := (s'.port p).line }
  wf : Store.Wf s.roster → Store.Wf s'.roster

theorem BlocksKept.refl (s : State) : BlocksKept s s := ⟨rfl, fun _ => rfl, fun _ => rfl, id⟩

theorem BlocksKept.trans (h : BlocksKept s s') (h' : BlocksKept s' s'') : BlocksKept s s'' where
  frame := h'.frame.trans (congrArg (fun u : State => { u with
    trees := s''.trees, roster := s''.roster, meters := s''.meters, watches := s''.watches, ports := s''.ports
    journal := s''.journal, band := s''.band, queue := s''.queue }) h.frame)
  tree k := (h'.tree k).trans (h.tree k)
  port p := (h'.port p).trans (congrArg (fun x : PortState => { x with
    notices := (s''.port p).notices, line := (s''.port p).line }) (h.port p))
  wf := h'.wf ∘ h.wf

def State.withQueue (s : State) (l : List ChangeEntry) : State := { s with queue := l }

/-- An operation of a block: it leaves what a pass leaves, and neither reads nor changes the queue. -/
structure Tame (f : State → State) : Prop where
  blocks : ∀ s, BlocksKept s (f s)
  blind : ∀ s l, f (s.withQueue l) = (f s).withQueue l

theorem Tame.queue {f : State → State} (h : Tame f) (s : State) : (f s).queue = s.queue := by
  have hself : f s = (f s).withQueue s.queue := h.blind s s.queue
  rw [hself]
  rfl

theorem Tame.id : Tame fun s => s := ⟨.refl, fun _ _ => rfl⟩

theorem Tame.comp {f g : State → State} (hg : Tame g) (hf : Tame f) : Tame fun s => g (f s) where
  blocks s := (hf.blocks s).trans (hg.blocks (f s))
  blind s l := by rw [hf.blind, hg.blind]

/-- An operation may go by what it reads of the part, the queue apart. -/
theorem Tame.reading {α : Type} (d : State → α) {f : α → State → State} (h : ∀ a, Tame (f a))
    (hd : ∀ s l, d (s.withQueue l) = d s) : Tame fun s => f (d s) s where
  blocks s := (h (d s)).blocks s
  blind s l := by rw [hd, (h (d s)).blind]

theorem Tame.foldl {α : Type} {f : State → α → State} (h : ∀ a, Tame fun s => f s a) (l : List α) :
    Tame fun s => l.foldl f s := by
  induction l with
  | nil => exact .id
  | cons a l ih => exact ih.comp (h a)

theorem Tame.raiseAt (p : Port) (t : Option TreeId) (d : Detail) : Tame fun s => s.raiseAt p t d where
  blocks s := by
    refine ⟨rfl, fun _ => rfl, fun p' => ?_, fun h => h⟩
    by_cases hp : p' = p
    · rw [hp, State.raiseAt_port]
    · rw [State.raiseAt_port_ne (s := s) t d hp]
  blind _ _ := rfl

theorem Tame.raise (t : TreeId) (d : Detail) : Tame fun s => s.raise t d :=
  .reading (fun s => routeOf s.routes d.kind) (f := fun p s => s.raiseAt p (some t) d) (fun p => .raiseAt p _ d) fun _ _ => rfl

theorem Tame.raiseKeyless (d : Detail) : Tame fun s => s.raiseKeyless d :=
  .reading (fun s => routeOf s.routes d.kind) (f := fun p s => s.raiseAt p none d) (fun p => .raiseAt p _ d) fun _ _ => rfl

theorem Tame.modTree {f : Tree → Tree} (h : ∀ x, (f x).standing = x.standing) (k : TreeId) : Tame fun s => s.modTree k f where
  blocks s := by
    refine ⟨rfl, fun j => ?_, fun _ => rfl, fun h => h⟩
    by_cases hj : j = k
    · rw [hj, State.modTree_tree, h]
    · rw [State.modTree_tree_ne _ _ hj]
  blind _ _ := rfl

theorem Tame.modLight (f : Light → Light) (k : TreeId) : Tame fun s => s.modLight k f :=
  .modTree (f := fun x => { x with light := f x.light }) (fun _ => rfl) k

theorem Tame.roster {f : Store Entry → Store Entry} (h : ∀ st, Store.Wf st → Store.Wf (f st)) :
    Tame fun s => { s with roster := f s.roster } :=
  ⟨fun s => ⟨rfl, fun _ => rfl, fun _ => rfl, h s.roster⟩, fun _ _ => rfl⟩

theorem Tame.modEntry (k : TreeId) (tag : Nat) (f : Entry → Entry) : Tame fun s => s.modEntry k tag f :=
  .roster (Store.wf_modify (slotOf k tag) f)

theorem Tame.setEntry (k : TreeId) (tag : Nat) (e : Entry) : Tame fun s => s.setEntry k tag e :=
  .roster (Store.wf_write (slotOf k tag) e)

theorem Tame.modTreeEntries (k : TreeId) (f : Nat → Entry → Entry) : Tame fun s => s.modTreeEntries k f :=
  .roster (f := fun ros => ros.map fun x : Nat × Entry => if slotTree x.1 = k.val then (x.1, f (slotTag x.1) x.2) else x)
    (Store.wf_map _ fun x => by split <;> rfl)

theorem Tame.meters (f : Store Meters → Store Meters) : Tame fun s => { s with meters := f s.meters } :=
  ⟨fun _ => ⟨rfl, fun _ => rfl, fun _ => rfl, fun h => h⟩, fun _ _ => rfl⟩

theorem Tame.watches (f : Store Watch → Store Watch) : Tame fun s => { s with watches := f s.watches } :=
  ⟨fun _ => ⟨rfl, fun _ => rfl, fun _ => rfl, fun h => h⟩, fun _ _ => rfl⟩

theorem Tame.journal (f : Journal → Journal) : Tame fun s => { s with journal := f s.journal } :=
  ⟨fun _ => ⟨rfl, fun _ => rfl, fun _ => rfl, fun h => h⟩, fun _ _ => rfl⟩

theorem Tame.band (b : BandId) : Tame fun s => { s with band := b } :=
  ⟨fun _ => ⟨rfl, fun _ => rfl, fun _ => rfl, fun h => h⟩, fun _ _ => rfl⟩

/-! ## The light supervisor (R131 to R140) -/

theorem Tame.setHunt (k : TreeId) (h : Hunt) : Tame fun s => s.setHunt k h := .modLight _ k

theorem Tame.endHunt (k : TreeId) (reason : HuntReason) (candidate : Option Nat) : Tame fun s => s.endHunt k reason candidate :=
  .reading State.round (f := fun n s => (s.modTreeEntries k fun _ e => e.wake).modLight k fun l => { l with
      suspicion := reason.after, observations := [], lastHunt := some { reason := reason, round := n, tag := candidate } })
    (fun _ => .comp (.modLight _ k) (.modTreeEntries k _)) fun _ _ => rfl

theorem Tame.unresolved (k : TreeId) (h : Hunt) (reason : HuntReason) (candidate : Option Nat) :
    Tame fun s => s.unresolved k h reason candidate := .comp (.endHunt k reason candidate) (.raise k _)

theorem Tame.formStep (k : TreeId) (h : Hunt) (tags : List Nat) : Tame fun s => s.formStep k h tags := by
  match tags with
  | [] => exact .unresolved k h .empty none
  | [c] => exact .comp (.setHunt k _) (.comp (.modEntry k c _) (.modTreeEntries k _))
  | _ :: _ :: _ => exact .comp (.setHunt k _) (.modTreeEntries k _)

theorem Tame.ite {f g : State → State} {p : Prop} [Decidable p] (hf : Tame f) (hg : Tame g) :
    Tame fun s => if p then f s else g s := by
  by_cases h : p
  · simpa only [if_pos h] using hf
  · simpa only [if_neg h] using hg

/-- What a tame operation does at each part, but for the queue, is tame. -/
theorem Tame.of_agree {f : State → State}
    (h : ∀ s : State, ∃ g : State → State, Tame g ∧ ∀ l, f (s.withQueue l) = g (s.withQueue l)) : Tame f where
  blocks s := by
    obtain ⟨g, hg, hf⟩ := h s
    have hs : f s = g s := hf s.queue
    rw [hs]
    exact hg.blocks s
  blind s l := by
    obtain ⟨g, hg, hf⟩ := h s
    have hs : f s = g s := hf s.queue
    rw [hf, hg.blind, hs]

theorem Tame.leaveHunt (k : TreeId) (tag : Nat) : Tame fun s => s.leaveHunt k tag := by
  refine .of_agree fun s => ?_
  cases hh : s.huntOf k with
  | none =>
    have hnone : ∀ l, (s.withQueue l).huntOf k = none := fun _ => hh
    exact ⟨fun s => s, .id, fun l => by simp only [State.leaveHunt, hnone]⟩
  | some h =>
    have hsome : ∀ l, (s.withQueue l).huntOf k = some h := fun _ => hh
    have hwake : Tame fun s => s.modEntry k tag Entry.wake := .modEntry k tag _
    cases hp : h.phase with
    | search group =>
      refine ⟨fun s => if tag ∈ h.suspects then
          if (h.suspects.filter fun x => x ≠ tag) = [] then (s.modEntry k tag Entry.wake).unresolved k h .empty none
          else if (group.filter fun x => x ≠ tag) = [] ∨
              (h.suspects.filter fun x => x ≠ tag).all (fun x => x ∈ group.filter fun x => x ≠ tag) then
            (s.modEntry k tag Entry.wake).formStep k h (h.suspects.filter fun x => x ≠ tag)
          else (s.modEntry k tag Entry.wake).setHunt k
            { h with suspects := h.suspects.filter fun x => x ≠ tag, phase := .search (group.filter fun x => x ≠ tag) }
        else s, ?_, fun l => by simp only [State.leaveHunt, hsome, hp]⟩
      exact .ite (.ite (.comp (.unresolved k h .empty none) hwake)
        (.ite (.comp (.formStep k h _) hwake) (.comp (.setHunt k _) hwake))) .id
    | trial c =>
      refine ⟨fun s => if tag = c then s.unresolved k h .empty (some c) else s, ?_,
        fun l => by simp only [State.leaveHunt, hsome, hp]⟩
      exact .ite (.unresolved k h .empty (some c)) .id
    | allQuiet c quiet =>
      refine ⟨fun s => if tag = c then s.unresolved k h .empty (some c)
        else if tag ∈ quiet then
          (s.modEntry k tag Entry.wake).setHunt k { h with phase := .allQuiet c (quiet.filter fun x => x ≠ tag) }
        else s, ?_, fun l => by simp only [State.leaveHunt, hsome, hp]⟩
      exact .ite (.unresolved k h .empty (some c)) (.ite (.comp (.setHunt k _) hwake) .id)

theorem Tame.beginHunt (k : TreeId) : Tame fun s => s.beginHunt k := by
  refine .of_agree fun s => ?_
  by_cases h : s.activeTags k = []
  · refine ⟨_, .comp (.modLight (fun l => { l with
        suspicion := .unresolved, observations := [], lastHunt := some { reason := .foreign, round := s.round, tag := none } }) k)
      (.comp (.modTreeEntries k fun _ e => e.wake) (.raise k (.rogueUnresolved k .foreign 0 s.round none))), fun l => ?_⟩
    exact State.beginHunt_of_none (s := s.withQueue l) h
  · refine ⟨_, .comp (.formStep k (s.firstHunt k) (s.activeTags k))
      (.modLight (fun l => { l with suspicion := .hunt (s.firstHunt k), observations := [] }) k), fun l => ?_⟩
    exact State.beginHunt_of_suspects (s := s.withQueue l) h

theorem Tame.abandonHunt (k : TreeId) : Tame fun s => s.abandonHunt k := by
  refine .of_agree fun s => ?_
  have hs : ∀ l, ((s.withQueue l).tree k).light.suspicion = (s.tree k).light.suspicion := fun _ => rfl
  have hclear : Tame fun u : State => u.modLight k fun l => { l with suspicion := .clear, observations := [] } := .modLight _ k
  cases hsus : (s.tree k).light.suspicion with
  | clear => exact ⟨fun u => u, .id, fun l => by simp only [State.abandonHunt, hs, hsus]⟩
  | watch => exact ⟨_, hclear, fun l => by simp only [State.abandonHunt, hs, hsus]⟩
  | unresolved => exact ⟨_, hclear, fun l => by simp only [State.abandonHunt, hs, hsus]⟩
  | hunt h =>
    have hend := Tame.endHunt k .abandoned
    cases hp : h.phase with
    | search group => exact ⟨_, hend none, fun l => by simp only [State.abandonHunt, hs, hsus, hp]⟩
    | trial c =>
      exact ⟨_, .comp (hend (some c)) (.modEntry k c fun e => (e.releaseFence true).getD e), fun l => by
        simp only [State.abandonHunt, hs, hsus, hp]
        rfl⟩
    | allQuiet c quiet =>
      exact ⟨_, .comp (hend (some c)) (.modEntry k c fun e => (e.releaseFence true).getD e), fun l => by
        simp only [State.abandonHunt, hs, hsus, hp]
        rfl⟩

/-! ## The meter bank and the journal (R148, R154, R165) -/

theorem Tame.openMeters (k : TreeId) (tag : Nat) : Tame fun s => s.openMeters k tag := by
  refine .of_agree fun s => ?_
  cases hm : s.meterOf k tag with
  | some m =>
    have hsome : ∀ l, (s.withQueue l).meterOf k tag = some m := fun _ => hm
    exact ⟨fun u => u, .id, fun l => by simp only [State.openMeters, hsome]⟩
  | none =>
    have hnone : ∀ l, (s.withQueue l).meterOf k tag = none := fun _ => hm
    refine ⟨_, .meters (Store.write (slotOf k tag) (zeroMeters s.round true)), fun l => ?_⟩
    simp only [State.openMeters, hnone]
    rfl

theorem Tame.releasePlace : Tame State.releasePlace := .journal fun j => { j with booked := j.booked - 1 }

theorem Tame.appendRecord (r : Record) : Tame fun s => s.appendRecord r := .journal fun j => { j with records := j.records ++ [r] }

theorem Tame.journalRose (before : Nat) : Tame fun s => s.journalRose before := by
  refine .of_agree fun s => ⟨fun u => if before < s.journal.mark ∧ s.journal.mark ≤ s.journal.records.length then
    u.raiseKeyless (.journalHigh s.journal.records.length s.journal.booked s.journal.mark s.round) else u, ?_, fun l => rfl⟩
  exact .ite (.raiseKeyless _) .id

theorem Tame.rearm (k : TreeId) (tag : Nat) : Tame fun s => s.rearm k tag :=
  .watches fun w => w.map fun x : Nat × Watch => if x.2.tree = k ∧ x.2.tag = tag then (x.1, { x.2 with fired := false }) else x

theorem Tame.finalRecord (k : TreeId) (tag : Nat) (e : Entry) : Tame fun s => s.finalRecord k tag e := by
  refine .of_agree fun s => ?_
  cases hm : s.meterOf k tag with
  | none =>
    have hnone : ∀ l, (s.withQueue l).meterOf k tag = none := fun _ => hm
    exact ⟨_, .releasePlace, fun l => by simp only [State.finalRecord, hnone]⟩
  | some m =>
    have hsome : ∀ l, (s.withQueue l).meterOf k tag = some m := fun _ => hm
    refine ⟨_, .comp (.rearm k tag) (.comp (.meters (Store.erase (slotOf k tag))) (.comp (.journalRose s.journal.records.length)
      (.comp .releasePlace (.appendRecord (s.recordOf true k tag e m))))), fun l => ?_⟩
    simp only [State.finalRecord, hsome]
    rfl

/-- An interval close at one slot is an operation of the journal, by what stands there, the queue apart. -/
theorem closeSlot_tame (s : State) (tally : CloseTally) (k : TreeId) (tag : Nat) : ∃ (f : State → State) (tally' : CloseTally),
    Tame f ∧ ∀ l, (s.withQueue l).closeSlot tally k tag = (f (s.withQueue l), tally') := by
  cases hm : s.meterOf k tag with
  | none =>
    have hnone : ∀ l, (s.withQueue l).meterOf k tag = none := fun _ => hm
    exact ⟨fun u => u, tally, .id, fun l => by simp only [State.closeSlot, hnone]⟩
  | some m =>
    have hsome : ∀ l, (s.withQueue l).meterOf k tag = some m := fun _ => hm
    cases he : s.entry k tag with
    | none =>
      have hnone : ∀ l, (s.withQueue l).entry k tag = none := fun _ => he
      exact ⟨fun u => u, tally, .id, fun l => by simp only [State.closeSlot, hsome, hnone]⟩
    | some e =>
      have hentry : ∀ l, (s.withQueue l).entry k tag = some e := fun _ => he
      by_cases ho : m.openedCut = s.round
      · have hopened : ∀ l, m.openedCut = (s.withQueue l).round := fun _ => ho
        exact ⟨fun u => u, tally, .id, fun l => by simp only [State.closeSlot, hsome, hentry, if_pos (hopened l)]⟩
      · have hopened : ∀ l, ¬ m.openedCut = (s.withQueue l).round := fun _ => ho
        by_cases hc : s.journal.records.length + s.journal.booked < journalCeiling
        · have hroom : ∀ l, (s.withQueue l).journal.records.length + (s.withQueue l).journal.booked < journalCeiling := fun _ => hc
          refine ⟨_, { tally with written := tally.written + 1 }, .comp (.modEntry k tag fun e => { e with capped := false })
            (.comp (.rearm k tag) (.comp (.meters (Store.write (slotOf k tag) (zeroMeters s.round false)))
              (.comp (.journalRose s.journal.records.length) (.appendRecord (s.recordOf false k tag e m))))), fun l => ?_⟩
          simp only [State.closeSlot, hsome, hentry, if_neg (hopened l), if_pos (hroom l)]
          rfl
        · have hroom : ∀ l, ¬ (s.withQueue l).journal.records.length + (s.withQueue l).journal.booked < journalCeiling := fun _ => hc
          exact ⟨fun u => u, { tally with carried := tally.carried + 1 }, .id, fun l => by
            simp only [State.closeSlot, hsome, hentry, if_neg (hopened l), if_neg (hroom l)]⟩

theorem closeSlots_tame (k : TreeId) (tags : List Nat) (s : State) (tally : CloseTally) :
    ∃ (f : State → State) (tally' : CloseTally), Tame f ∧ ∀ l,
      tags.foldl (fun (acc : State × CloseTally) tag => acc.1.closeSlot acc.2 k tag) (s.withQueue l, tally) =
        (f (s.withQueue l), tally') := by
  induction tags generalizing s tally with
  | nil => exact ⟨fun u => u, tally, .id, fun _ => rfl⟩
  | cons tag rest ih =>
    obtain ⟨f, tally', hf, hone⟩ := closeSlot_tame s tally k tag
    obtain ⟨g, tally'', hg, hrest⟩ := ih (f s) tally'
    refine ⟨_, tally'', hg.comp hf, fun l => ?_⟩
    rw [List.foldl_cons, hone, hf.blind, hrest]

theorem Tame.closeTree (k : TreeId) : Tame fun s => s.closeTree k := by
  refine .of_agree fun s => ?_
  obtain ⟨f, tally, hf, hslots⟩ := closeSlots_tame k (s.openTags k) s { written := 0, carried := 0 }
  have htags : ∀ l, (s.withQueue l).openTags k = s.openTags k := fun _ => rfl
  let number := (f s).journal.intervals.get k
  refine ⟨_, .comp (.raise k (.intervalClosed k number (f s).round tally.written tally.carried (f s).journal.records.length
    (f s).journal.booked)) (.comp (.journal fun j => { j with intervals := j.intervals.set k (number + 1) }) hf), fun l => ?_⟩
  simp only [State.closeTree, htags, hslots, hf.blind]
  rfl

theorem Tame.closeTrees (k : Option TreeId) : Tame fun s => s.closeTrees k := by
  cases k with
  | some k => exact .closeTree k
  | none => exact .foldl (f := State.closeTree) .closeTree allFour

/-! ## The changes handed over, and the order of the queue (R113, R114) -/

/-- The order in which a pass takes the entries of the queue. -/
def inOrder (l : List ChangeEntry) : List ChangeEntry := (l.filter fun q => q.change.urgent) ++ l.filter fun q => !q.change.urgent

/-- The part with its queue in the order of a pass. -/
def State.sorted (s : State) : State := s.withQueue (inOrder s.queue)

/-- An operation that keeps the queue in the order it has, each entry urgent as it was, and goes by no other order of it. -/
structure Orderly (f : State → State) : Prop where
  blocks : ∀ s, BlocksKept s (f s)
  sorts : ∀ s, f s.sorted = (f s).sorted
  urgent : ∀ s, ((f s).queue.map fun q => q.change.urgent) = s.queue.map fun q => q.change.urgent

theorem Tame.orderly {f : State → State} (h : Tame f) : Orderly f where
  blocks := h.blocks
  sorts s := by rw [State.sorted, h.blind, State.sorted, h.queue]
  urgent s := by rw [h.queue]

theorem Orderly.comp {f g : State → State} (hg : Orderly g) (hf : Orderly f) : Orderly fun s => g (f s) where
  blocks s := (hf.blocks s).trans (hg.blocks (f s))
  sorts s := by rw [hf.sorts, hg.sorts]
  urgent s := (hg.urgent (f s)).trans (hf.urgent s)

theorem inOrder_perm (l : List ChangeEntry) : (inOrder l).Perm l := List.filter_append_perm _ l

theorem bookedFor_perm {l l' : List Nat} (h : l.Perm l') (c : Nat) : bookedFor c l = bookedFor c l' :=
  h.foldl_eq' (fun x _ y _ z => by omega) c

theorem Orderly.rebook (k : TreeId) (tag : Nat) : Orderly fun s => s.rebook k tag where
  blocks s := (Tame.modEntry k tag _).blocks s
  sorts s := by
    have hrates : ∀ n, (queuedRates (inOrder s.queue) k tag n).Perm (queuedRates s.queue k tag n) := fun n =>
      (inOrder_perm s.queue).filterMap _
    have hbooked : (fun e : Entry => { e with booked := bookedFor e.contract.c (queuedRates (inOrder s.queue) k tag e.occupied) }) =
        fun e => { e with booked := bookedFor e.contract.c (queuedRates s.queue k tag e.occupied) } := funext fun e => by
      rw [bookedFor_perm (hrates _)]
    show s.sorted.modEntry k tag (fun e : Entry =>
      { e with booked := bookedFor e.contract.c (queuedRates (inOrder s.queue) k tag e.occupied) }) = _
    rw [hbooked]
    rfl
  urgent s := rfl

theorem inOrder_map {g : ChangeEntry → ChangeEntry} (h : ∀ q, (g q).change.urgent = q.change.urgent) (l : List ChangeEntry) :
    inOrder (l.map g) = (inOrder l).map g := by
  simp only [inOrder, List.filter_map, List.map_append, Function.comp_def, h]

theorem Orderly.voidQueued (k : TreeId) (tag : Nat) : Orderly fun s => s.voidQueued k tag := by
  have hurgent : ∀ q : ChangeEntry, (if q.change.names k tag then { q with voided := true } else q).change.urgent =
      q.change.urgent := fun q => by split <;> rfl
  refine ⟨fun s => ⟨rfl, fun _ => rfl, fun _ => rfl, fun h => h⟩, fun s => ?_, fun s => ?_⟩
  · exact congrArg s.withQueue (inOrder_map hurgent s.queue).symm
  · show (s.queue.map fun q : ChangeEntry => if q.change.names k tag then { q with voided := true } else q).map _ = _
    rw [List.map_map]
    exact List.map_congr_left fun q _ => hurgent q

/-- Every change is handed over as an orderly operation, carried out or not by what stands, the queue apart. -/
def OrderlyAt (s : State) (q : ChangeEntry) : Prop :=
  ∃ (f : State → State) (b : Bool), Orderly f ∧ ∀ l, (s.withQueue l).applyChange q = { state := f (s.withQueue l), carriedOut := b }

theorem applyContract_orderly {q : ChangeEntry} {v : Contract} (hq : q.change = .contract k tag v) (s : State) : OrderlyAt s q := by
  have hbook := Orderly.rebook k tag
  have ht : ∀ l, (s.withQueue l).targetOf q k tag = s.targetOf q k tag := fun _ => rfl
  cases he : s.targetOf q k tag with
  | none => exact ⟨_, false, hbook, fun l => by simp only [State.applyChange, hq, State.applyContract, ht, he]⟩
  | some e =>
    by_cases hl : e.state = .leaving
    · exact ⟨_, false, hbook, fun l => by simp only [State.applyChange, hq, State.applyContract, ht, he, if_pos hl]⟩
    · exact ⟨_, true, hbook.comp (Tame.setEntry k tag { e with contract := v }).orderly, fun l => by
        simp only [State.applyChange, hq, State.applyContract, ht, he, if_neg hl]⟩

theorem applyWithdraw_orderly {q : ChangeEntry} (hq : q.change = .withdraw k tag) (s : State) : OrderlyAt s q := by
  have ht : ∀ l, (s.withQueue l).targetOf q k tag = s.targetOf q k tag := fun _ => rfl
  cases he : s.targetOf q k tag with
  | none =>
    exact ⟨_, false, Tame.releasePlace.orderly, fun l => by simp only [State.applyChange, hq, State.applyWithdraw, ht, he]⟩
  | some e =>
    cases hl : e.toLeaving with
    | none =>
      exact ⟨_, false, Tame.releasePlace.orderly, fun l => by simp only [State.applyChange, hq, State.applyWithdraw, ht, he, hl]⟩
    | some e' =>
      exact ⟨_, true, (Orderly.rebook k tag).comp ((Orderly.voidQueued k tag).comp ((Tame.leaveHunt k tag).comp
        ((Tame.setEntry k tag e').comp (.finalRecord k tag e))).orderly), fun l => by
          simp only [State.applyChange, hq, State.applyWithdraw, ht, he, hl]⟩

theorem applyFence_orderly {q : ChangeEntry} (hq : q.change = .fence k tag) (s : State) : OrderlyAt s q := by
  have ht : ∀ l, (s.withQueue l).targetOf q k tag = s.targetOf q k tag := fun _ => rfl
  cases he : s.targetOf q k tag with
  | none => exact ⟨_, false, Tame.id.orderly, fun l => by simp only [State.applyChange, hq, State.applyFence, ht, he]⟩
  | some e =>
    cases hf : e.applyFence with
    | none => exact ⟨_, false, Tame.id.orderly, fun l => by simp only [State.applyChange, hq, State.applyFence, ht, he, hf]⟩
    | some e' =>
      have hset := Tame.setEntry k tag e'
      have hopen : Tame fun s : State => if e.state = .timed then (s.setEntry k tag e').openMeters k tag else s.setEntry k tag e' :=
        .ite ((Tame.openMeters k tag).comp hset) hset
      exact ⟨_, true, (Tame.ite (p := e.state = .fenced) hopen ((Tame.leaveHunt k tag).comp hopen)).orderly, fun l => by
        simp only [State.applyChange, hq, State.applyFence, ht, he, hf]⟩

theorem applyRelease_orderly {q : ChangeEntry} (hq : q.change = .release k tag) (s : State) : OrderlyAt s q := by
  have ht : ∀ l, (s.withQueue l).targetOf q k tag = s.targetOf q k tag := fun _ => rfl
  have hp : ∀ l, (s.withQueue l).tree k = s.tree k := fun _ => rfl
  cases he : s.targetOf q k tag with
  | none => exact ⟨_, false, Tame.id.orderly, fun l => by simp only [State.applyChange, hq, State.applyRelease, ht, he]⟩
  | some e =>
    cases hr : (if (s.tree k).phase = .running then e.releaseFence false else none) with
    | none => exact ⟨_, false, Tame.id.orderly, fun l => by simp only [State.applyChange, hq, State.applyRelease, ht, hp, he, hr]⟩
    | some e' =>
      exact ⟨_, true, (Tame.setEntry k tag e').orderly, fun l => by
        simp only [State.applyChange, hq, State.applyRelease, ht, hp, he, hr]⟩

theorem applyUncap_orderly {q : ChangeEntry} (hq : q.change = .uncap k tag) (s : State) : OrderlyAt s q := by
  have ht : ∀ l, (s.withQueue l).targetOf q k tag = s.targetOf q k tag := fun _ => rfl
  cases he : s.targetOf q k tag with
  | none => exact ⟨_, false, Tame.id.orderly, fun l => by simp only [State.applyChange, hq, State.applyUncap, ht, he]⟩
  | some e =>
    exact ⟨_, true, (Tame.setEntry k tag { e with capped := false }).orderly, fun l => by
      simp only [State.applyChange, hq, State.applyUncap, ht, he]⟩

theorem applyChange_orderly (s : State) (q : ChangeEntry) : OrderlyAt s q := by
  cases hq : q.change with
  | contract k tag v => exact applyContract_orderly hq s
  | treeSetting k name v =>
    exact ⟨_, true, (Tame.modTree (f := fun x => { x with settings := x.settings.put name v }) (fun _ => rfl) k).orderly, fun l => by
      simp only [State.applyChange, hq]⟩
  | withdraw k tag => exact applyWithdraw_orderly hq s
  | fence k tag => exact applyFence_orderly hq s
  | release k tag => exact applyRelease_orderly hq s
  | uncap k tag => exact applyUncap_orderly hq s
  | switchBand b => exact ⟨_, true, (Tame.band b).orderly, fun l => by simp only [State.applyChange, hq]⟩
  | closeInterval k => exact ⟨_, true, (Tame.closeTrees k).orderly, fun l => by simp only [State.applyChange, hq]⟩

end Sys2Proof.Machine
end

section
/-! PROOFS. The cut: the pass in its order, and the builds on what it leaves (O42). -/

namespace Sys2Proof.Machine

variable {s s' s'' : State} {k j : TreeId} {tag n : Nat} {e : Entry} {q : ChangeEntry} {l : List ChangeEntry}

/-! ## One step of a pass (R113, R116) -/

/-- The part once an entry of the queue is handed over and its APPLIED raised, with the queue's rest. -/
def State.handed (s : State) (q : ChangeEntry) (rest : List ChangeEntry) : State :=
  let r := (s.withQueue rest).applyChange q
  r.state.raiseAt q.origin q.change.keyTree (.applied q.change q.roundTaken r.carriedOut (if r.carriedOut then 0 else 1))

theorem State.passStep_of_cons (h : s.queue = q :: l) : s.passStep = s.handed q l := by
  simp only [State.passStep, h]
  rfl

theorem State.handed_orderly (s : State) (q : ChangeEntry) :
    ∃ f : State → State, Orderly f ∧ ∀ l, s.handed q l = f (s.withQueue l) := by
  obtain ⟨f, b, hf, happly⟩ := applyChange_orderly s q
  refine ⟨_, (Tame.raiseAt q.origin q.change.keyTree (.applied q.change q.roundTaken b (if b then 0 else 1))).orderly.comp hf,
    fun l => ?_⟩
  simp only [State.handed, happly]

theorem State.handed_inOrder (s : State) (q : ChangeEntry) (l : List ChangeEntry) :
    s.handed q (inOrder l) = (s.handed q l).sorted := by
  obtain ⟨f, hf, hhanded⟩ := s.handed_orderly q
  rw [hhanded, hhanded, ← hf.sorts]
  rfl

theorem State.handed_urgent (s : State) (q : ChangeEntry) (l : List ChangeEntry) :
    ((s.handed q l).queue.map fun x => x.change.urgent) = l.map fun x => x.change.urgent := by
  obtain ⟨f, hf, hhanded⟩ := s.handed_orderly q
  rw [hhanded]
  exact hf.urgent _

theorem State.handed_length (s : State) (q : ChangeEntry) (l : List ChangeEntry) : (s.handed q l).queue.length = l.length := by
  simpa using congrArg List.length (s.handed_urgent q l)

theorem State.handed_blocks (s : State) (q : ChangeEntry) (l : List ChangeEntry) : BlocksKept s (s.handed q l) := by
  obtain ⟨f, hf, hhanded⟩ := s.handed_orderly q
  have hqueue : BlocksKept s (s.withQueue l) := ⟨rfl, fun _ => rfl, fun _ => rfl, id⟩
  rw [hhanded]
  exact hqueue.trans (hf.blocks _)

/-! ## The pass (R113) -/

theorem State.pass_eq (s : State) : s.pass = passAll s.queue.length s.sorted := by
  rw [← (inOrder_perm s.queue).length_eq]
  rfl

theorem passAll_keeps (n : Nat) (s : State) (h : s.queue.length = n) :
    (passAll n s).queue = [] ∧ BlocksKept s (passAll n s) := by
  induction n generalizing s with
  | zero => exact ⟨List.length_eq_zero_iff.1 h, .refl s⟩
  | succ n ih =>
    obtain ⟨q, rest, hq⟩ := List.exists_cons_of_length_eq_add_one h
    have hlength : s.passStep.queue.length = n := by
      rw [State.passStep_of_cons hq, State.handed_length]
      rw [hq, List.length_cons] at h
      omega
    obtain ⟨hempty, hblocks⟩ := ih s.passStep hlength
    refine ⟨hempty, BlocksKept.trans ?_ hblocks⟩
    rw [State.passStep_of_cons hq]
    exact s.handed_blocks q rest

theorem State.pass_keeps (s : State) : s.pass.queue = [] ∧ BlocksKept s s.pass := by
  have hsorted : BlocksKept s s.sorted := ⟨rfl, fun _ => rfl, fun _ => rfl, id⟩
  obtain ⟨hempty, hblocks⟩ := passAll_keeps s.queue.length s.sorted (inOrder_perm s.queue).length_eq
  rw [State.pass_eq]
  exact ⟨hempty, hsorted.trans hblocks⟩

/-- A pass takes first the entry that comes first in its order. -/
theorem State.pass_of_first {rest : List ChangeEntry} (h : inOrder s.queue = q :: inOrder rest) :
    s.pass = (s.handed q rest).pass := by
  have hlength : s.queue.length = (s.handed q rest).queue.length + 1 := by
    have hone := congrArg List.length h
    rw [(inOrder_perm s.queue).length_eq, List.length_cons, (inOrder_perm rest).length_eq] at hone
    rw [hone, State.handed_length]
  have hstep : s.sorted.passStep = s.handed q (inOrder rest) := State.passStep_of_cons (s := s.sorted) h
  rw [State.pass_eq, hlength, passAll, hstep, State.handed_inOrder, ← State.pass_eq]

theorem inOrder_of_urgent {front back : List ChangeEntry} (hq : q.change.urgent = true)
    (hfront : ∀ x ∈ front, ¬ x.change.urgent = true) : inOrder (front ++ q :: back) = q :: inOrder (front ++ back) := by
  have hnone : (front.filter fun x => x.change.urgent) = [] := List.filter_eq_nil_iff.2 hfront
  simp [inOrder, hnone, hq]

theorem inOrder_of_none (h : ∀ x ∈ l, ¬ x.change.urgent = true) : inOrder l = l := by
  have hnone : (l.filter fun x => x.change.urgent) = [] := List.filter_eq_nil_iff.2 h
  have hall : (l.filter fun x => !x.change.urgent) = l := List.filter_eq_self.2 fun x hx => by
    rw [Bool.not_eq_true', ← Bool.not_eq_true]
    exact h x hx
  rw [inOrder, hnone, hall, List.nil_append]

theorem Change.urgent_iff (c : Change) :
    c.urgent = true ↔ (∃ k tag, c = .fence k tag) ∨ ∃ k tag, c = .release k tag := by
  cases c <;> simp [Change.urgent]

/-! ## The builds of a cut -/

/-- What stands through the builds of all four trees. -/
theorem builds_frame (s : State) :
    allFour.foldl State.buildPlan s = { s with
      trees := (allFour.foldl State.buildPlan s).trees, roster := (allFour.foldl State.buildPlan s).roster } := by
  obtain ⟨u, hbefore, hafter⟩ := builds_around s 0
  have hmiddle := (u.buildPlan_frame 0).1
  generalize allFour.foldl State.buildPlan s = t at hafter ⊢
  exact hafter.frame.trans (congrArg (fun v : State => { v with trees := t.trees, roster := t.roster })
    (hmiddle.trans (congrArg (fun v : State => { v with trees := (u.buildPlan 0).trees, roster := (u.buildPlan 0).roster })
      hbefore.frame)))

/-! ## The plan of a SETTLING tree (R3) -/

/-- The plan record of a SETTLING tree: a dark window and nothing else. -/
def State.settlingRecord (s : State) (k : TreeId) : PlanRecord :=
  { round := s.round + 2, settling := true
    settlingNo := if (s.tree k).settlingCount < 16 then (s.tree k).settlingCount + 1 else 0
    dark := some (s.tree k).settings.wDark, window := none, grants := [], marks := entryMarks (s.treeEntries k) }

theorem State.buildPlan_of_settling (h : (s.tree k).phase = .settling) : s.buildPlan k = s.setTree k { s.tree k with
    settlingCount := min 16 ((s.tree k).settlingCount + 1), plans := (s.tree k).plans ++ [s.settlingRecord k] } := by
  have hsettling : s.buildPlan k = s.buildSettling k := by simp only [State.buildPlan, h]
  rw [hsettling]
  rfl

theorem State.buildPlan_of_down (h : (s.tree k).phase = .down ∨ (s.tree k).phase = .faulted) : s.buildPlan k = s := by
  obtain h | h := h <;> simp only [State.buildPlan, h]

/-- A build leaves the phase and the frame of its tree. -/
theorem State.buildPlan_tree_stands (s : State) (k : TreeId) :
    ((s.buildPlan k).tree k).phase = (s.tree k).phase ∧ ((s.buildPlan k).tree k).framer = (s.tree k).framer := by
  cases hp : (s.tree k).phase with
  | down => rw [State.buildPlan_of_down (.inl hp)]; exact ⟨hp, rfl⟩
  | faulted => rw [State.buildPlan_of_down (.inr hp)]; exact ⟨hp, rfl⟩
  | settling => rw [State.buildPlan_of_settling hp, State.setTree_tree]; exact ⟨hp, rfl⟩
  | running =>
    obtain ⟨g, htree⟩ := State.buildPlan_tree_of_running hp
    rw [htree]
    exact ⟨hp, rfl⟩

/-! ## The cut of a round on which no request is held -/

theorem exec_cut (s : State) : exec .cut s = .next s.takeCut := rfl

theorem State.passed_keeps (s : State) : s.passed.queue = [] ∧ BlocksKept { s with cutTaken := true } s.passed :=
  State.pass_keeps { s with cutTaken := true }

theorem State.takeCut_of_free (hcut : s.cutTaken = false) (h : ∀ p, (s.port p).inProgress = none) :
    s.takeCut = allFour.foldl State.buildPlan s.passed := by
  have hfree : ∀ p, (s.passed.port p).inProgress = none := fun p =>
    (congrArg PortState.inProgress (s.passed_keeps.2.port p)).trans (h p)
  rw [State.takeCut_open _ hcut, State.openCut_of_free hfree]

/-- What the builds make of one tree, on what the pass has left of it. -/
theorem builds_tree (s : State) (k : TreeId) :
    let t := allFour.foldl State.buildPlan s
    (t.tree k).phase = (s.tree k).phase ∧ (t.tree k).framer = (s.tree k).framer ∧
    ((s.tree k).phase = .down ∨ (s.tree k).phase = .faulted → (t.tree k).plans = (s.tree k).plans) ∧
    ((s.tree k).phase = .settling →
      (t.tree k).settlingCount = min 16 ((s.tree k).settlingCount + 1) ∧
      ∃ r : PlanRecord, (t.tree k).plans = (s.tree k).plans ++ [r] ∧ r.round = s.round + 2 ∧
        r.settling = true ∧ r.dark = some (t.tree k).settings.wDark ∧ r.window = none ∧ r.grants = [] ∧
        ((s.tree k).settlingCount < 16 → r.settlingNo = (s.tree k).settlingCount + 1) ∧
        (16 ≤ (s.tree k).settlingCount → r.settlingNo = 0) ∧
        (Store.Wf s.roster → ∀ tag : Nat, tagOk tag = true →
          t.entry k tag = s.entry k tag ∧ Store.read tag r.marks = (s.entry k tag).bind entryMark)) ∧
    ((s.tree k).phase = .running → ∃ r : PlanRecord, (t.tree k).plans = (s.tree k).plans ++ [r] ∧ r.round = s.round + 2 ∧
      r.settling = false) := by
  intro t
  obtain ⟨u, hbefore, hafter⟩ := builds_around s k
  have hround : u.round = s.round := (congrArg State.round hbefore.frame :)
  obtain ⟨hphase, hframer⟩ := u.buildPlan_tree_stands k
  rw [hbefore.tree] at hphase hframer
  rw [hafter.tree]
  refine ⟨hphase, hframer, fun hp => ?_, fun hp => ?_, fun hp => ?_⟩
  · rw [State.buildPlan_of_down (hbefore.tree ▸ hp), hbefore.tree]
  · have hbuilt := State.buildPlan_of_settling (hbefore.tree ▸ hp : (u.tree k).phase = .settling)
    have htree : (u.buildPlan k).tree k = { s.tree k with
        settlingCount := min 16 ((s.tree k).settlingCount + 1), plans := (s.tree k).plans ++ [u.settlingRecord k] } := by
      rw [hbuilt, State.setTree_tree, hbefore.tree]
    have hcount : (u.settlingRecord k).settlingNo =
        if (s.tree k).settlingCount < 16 then (s.tree k).settlingCount + 1 else 0 := by rw [← hbefore.tree]; rfl
    have hdark : (u.settlingRecord k).dark = some (s.tree k).settings.wDark := by rw [← hbefore.tree]; rfl
    rw [htree]
    refine ⟨rfl, u.settlingRecord k, rfl, congrArg (· + 2) hround, rfl, hdark, rfl, rfl, fun h => ?_, fun h => ?_,
      fun hw tag htag => ?_⟩
    · rw [hcount, if_pos h]
    · rw [hcount, if_neg (Nat.not_lt.2 h)]
    · have hentry : (u.buildPlan k).entry k tag = u.entry k tag := by rw [hbuilt]; rfl
      refine ⟨by rw [hafter.entry tag htag, hentry, hbefore.entry tag htag], ?_⟩
      rw [← hbefore.entry tag htag]
      exact State.read_marks (hbefore.wf hw) htag
  · obtain ⟨g, htree⟩ := State.buildPlan_tree_of_running (hbefore.tree ▸ hp : (u.tree k).phase = .running)
    rw [htree, hbefore.tree]
    exact ⟨_, rfl, congrArg (· + 2) (State.answered_round.trans hround), rfl⟩

/-- Settles O42: a pass goes by the order of its queue alone, and each build by what the pass left of its tree. -/
theorem cutAppliesAndBuilds : Obligations.CutAppliesAndBuilds := by
  refine ⟨fun s => ?_, fun s => ⟨fun h => ?_, fun hcut hfree => ?_⟩⟩
  · intro handed urgent
    have hkey : ∀ q rest, s.handed q rest = handed q rest := fun q rest => by
      simp only [handed, State.handed, State.withQueue]
      cases q.change <;> rfl
    have hurgent : ∀ q, urgent q ↔ q.change.urgent = true := fun q => q.change.urgent_iff.symm
    refine ⟨State.pass_of_empty, fun front back q hqueue hq hfront => ?_, fun q rest hqueue hnone => ?_⟩
    · rw [← hkey]
      refine State.pass_of_first ?_
      rw [hqueue]
      exact inOrder_of_urgent ((hurgent q).1 hq) fun x hx => mt (hurgent x).2 (hfront x hx)
    · rw [← hkey]
      refine State.pass_of_first ?_
      have hnone : ∀ x ∈ q :: rest, ¬ x.change.urgent = true := fun x hx => mt (hurgent x).2 (hnone x (hqueue ▸ hx))
      rw [hqueue, inOrder_of_none hnone, inOrder_of_none fun x hx => hnone x (List.mem_cons_of_mem _ hx)]
  · rw [exec_cut, State.takeCut_taken _ h]
  · have htake := State.takeCut_of_free hcut hfree
    obtain ⟨hempty, hblocks⟩ := s.passed_keeps
    obtain ⟨hframe, htree⟩ := And.intro (builds_frame s.passed) (builds_tree s.passed)
    refine ⟨_, congrArg Host.Outcome.next htake, rfl, ?_⟩
    have hpass : ({ s with cutTaken := true } : State).pass = s.passed := rfl
    rw [hpass]
    generalize allFour.foldl State.buildPlan s.passed = t at hframe htree
    have hkept := hframe.trans (congrArg (fun u : State => { u with trees := t.trees, roster := t.roster }) hblocks.frame)
    refine ⟨(congrArg State.cutTaken hkept :), (congrArg State.round hkept :), (congrArg State.queue hframe).trans hempty,
      (congrArg State.openMode hkept :), (congrArg State.admissions hkept :), (congrArg State.upBuffer hkept :),
      (congrArg State.routes hkept :), fun k => ?_⟩
    have hround : s.passed.round = s.round := (congrArg State.round hblocks.frame :)
    have hstands : (s.passed.tree k).standing = (s.tree k).standing := hblocks.tree k
    simp only [Tree.standing, Prod.mk.injEq] at hstands
    obtain ⟨hphase, hcount, hplans, hframer⟩ := hstands
    have hone := htree k
    rw [hphase, hcount, hplans, hframer, hround] at hone
    obtain ⟨hphase, hframer, hdown, hsettling, hrunning⟩ := hone
    refine ⟨hphase, hframer, hdown, fun hp => ?_, hrunning⟩
    obtain ⟨hcount, r, hplans, hround, hset, hdark, hwindow, hgrants, hno, hno', hentries⟩ := hsettling hp
    refine ⟨hcount, r, hplans, hround, hset, hdark, hwindow, hgrants, hno, hno', fun hcanonical tag htag => ?_⟩
    obtain ⟨hentry, hmarks⟩ := hentries (hblocks.wf hcanonical.1) tag htag
    exact ⟨hentry, hmarks.trans (congrArg (Option.bind _) (funext entryMark_eq))⟩

end Sys2Proof.Machine
end

section
/-! PROOFS. The slots of the ports at a cut: what a request that is taken leaves of them, and the ends of a held request (O44). -/

namespace Sys2Proof.Machine

variable {s s' u : State} {k : TreeId} {p j : Port} {tag n : Nat} {q : Byte} {h : Held}

/-! ## What a request that is taken leaves of the slots (R172) -/

/-- The in-progress slots of the ports stay, and the round. -/
structure SlotsKept (s s' : State) : Prop where
  round : s'.round = s.round
  slots : ∀ j, (s'.port j).inProgress = (s.port j).inProgress

theorem SlotsKept.of_ports (hp : s'.ports = s.ports) (hr : s'.round = s.round) : SlotsKept s s' :=
  ⟨hr, fun j => congrArg PortState.inProgress (congrArg (Trio.get · j) hp)⟩

theorem SlotsKept.modPort (p : Port) {f : PortState → PortState} (hf : ∀ x, (f x).inProgress = x.inProgress)
    (h : SlotsKept s s') : SlotsKept s (s'.modPort p f) :=
  ⟨h.round, fun j => (State.modPort_inProgress p j hf).trans (h.slots j)⟩

theorem SlotsKept.reply (p : Port) (q : Byte) (a : Status) (r : Results) (h : SlotsKept s s') : SlotsKept s (s'.reply p q a r) :=
  h.modPort p fun _ => rfl

theorem SlotsKept.refuse (s : State) (p : Port) (q : Byte) (a : Status) : SlotsKept s (s.refuse p q a) :=
  SlotsKept.reply p q a .nothing ⟨rfl, fun _ => rfl⟩

theorem BlocksKept.slotsKept (h : BlocksKept s s') : SlotsKept s s' :=
  ⟨(congrArg State.round h.frame :), fun j => (congrArg PortState.inProgress (h.port j) :)⟩

/-- What taking a request leaves: the slots of the other ports, and at its own port nothing or the request held from this round
on. -/
structure Takes (p : Port) (s s' : State) : Prop where
  round : s'.round = s.round
  others : ∀ j, j ≠ p → (s'.port j).inProgress = (s.port j).inProgress
  own : (s'.port p).inProgress = none ∨ ∃ h, (s'.port p).inProgress = some h ∧ h.roundTaken = s.round ∧ h.ticket = s.tickets ∧
    (s'.port p).holdLimit = (s.port p).holdLimit

theorem SlotsKept.takes (h : SlotsKept s s') (hp : (s.port p).inProgress = none) : Takes p s s' :=
  ⟨h.round, fun j _ => h.slots j, .inl ((h.slots p).trans hp)⟩

theorem stageChange_takes (hp : (s.port p).inProgress = none) (q : Byte) (c : Change) : Takes p s (s.stageChange p q c) := by
  by_cases hm : s.mayEnter p = true
  · have henter : SlotsKept s (s.enterQueue p c s.round) := by
      rw [State.enterQueue_eq]
      exact .of_ports rfl rfl
    rw [State.stageChange, if_pos hm]
    exact (henter.reply p q .staged .nothing).takes hp
  · rw [State.stageChange, if_neg hm]
    refine ⟨rfl, fun j hj => ?_, .inr ⟨{ seq := q, change := c, roundTaken := s.round, ticket := s.tickets }, ?_, rfl, rfl, ?_⟩⟩
    · exact congrArg PortState.inProgress (State.modPort_port_ne _ _ hj)
    · rw [State.modPort_port]
    · rw [State.modPort_port]
      rfl

theorem withHome_takes (hp : (s.port p).inProgress = none) {ok : Bool} {wrong : Entry → Bool} {go : TreeId → Entry → State}
    (hgo : ∀ k e, Takes p s (go k e)) : Takes p s (s.withHome p q n tag ok wrong go) := by
  have href : ∀ a, Takes p s (s.refuse p q a) := fun a => (SlotsKept.refuse s p q a).takes hp
  unfold State.withHome
  split
  · exact href _
  · split
    · exact href _
    · split
      · exact href _
      · split
        · exact href _
        · exact hgo _ _

theorem takeSetTree_takes (hp : (s.port p).inProgress = none) (code v : Nat) : Takes p s (s.takeSetTree p q n code v) := by
  have href : ∀ a, Takes p s (s.refuse p q a) := fun a => (SlotsKept.refuse s p q a).takes hp
  unfold State.takeSetTree
  split
  · rename_i k name _ _
    split
    · exact href _
    · split
      · exact href _
      · split
        · exact href _
        · split
          · refine SlotsKept.takes (SlotsKept.reply p q _ _ ?_) hp
            unfold State.setAtOnce
            split <;> exact .of_ports rfl rfl
          · exact stageChange_takes hp _ _
  · exact href _

/-- A request that stages a change is taken so (R112). -/
theorem takeWithdraw_takes (hp : (s.port p).inProgress = none) : Takes p s (s.takeWithdraw p q n tag) := by
  refine withHome_takes hp fun k e => ?_
  split
  · exact (SlotsKept.refuse s p q _).takes hp
  · obtain ⟨hround, hothers, hown⟩ :=
      stageChange_takes (s := { s with journal := { s.journal with booked := s.journal.booked + 1 } }) hp q (.withdraw k tag)
    exact ⟨hround, hothers, hown⟩

theorem takeStopTree_slots : SlotsKept s (s.takeStopTree p q n) := by
  unfold State.takeStopTree
  split
  · exact .refuse s p q _
  · split
    · exact .refuse s p q _
    · exact .reply p q _ _ (.of_ports State.stopTree_ports (congrArg State.round State.stopTree_frame :))

theorem takeStartTree_slots : SlotsKept s (s.takeStartTree p q n) := by
  unfold State.takeStartTree
  split
  · exact .refuse s p q _
  · split
    · exact .refuse s p q _
    · exact .refuse s p q _
    · exact .reply p q _ _ (.of_ports rfl rfl)

theorem takeSetAllocations_slots {l a v : Nat} : SlotsKept s (s.takeSetAllocations p q l a v) := by
  unfold State.takeSetAllocations
  split
  · exact .refuse s p q _
  · split
    · refine .reply p q _ _ (.modPort .supervisor (fun _ => rfl) (.modPort .accounting (fun _ => rfl) (.modPort .line (fun _ => rfl) ?_)))
      exact ⟨rfl, fun _ => rfl⟩
    · exact .refuse s p q _

theorem testWatch_slots : SlotsKept s (s.testWatch n) := by
  have hfired := Fired.testWatch (s := s) n
  exact ⟨(congrArg State.round hfired.frame :), fun j => (congrArg PortState.inProgress (hfired.ports j) :)⟩

theorem takeSetWatch_slots {watch tree direction band threshold action : Nat} :
    SlotsKept s (s.takeSetWatch p q watch tree tag direction band threshold action) := by
  unfold State.takeSetWatch
  split
  · exact .refuse s p q _
  · rename_i w _
    split
    · exact .refuse s p q _
    · obtain ⟨hround, hslots⟩ := testWatch_slots (s := { s with watches := Store.write watch w s.watches }) (n := watch)
      exact .reply p q _ _ ⟨hround, hslots⟩

theorem takeHunt_slots : SlotsKept s (s.takeHunt p q n) := by
  unfold State.takeHunt
  split
  · exact .refuse s p q _
  · split
    · exact .refuse s p q _
    · exact .reply p q _ _ ((Tame.beginHunt _).blocks s).slotsKept

theorem takeAbandon_slots : SlotsKept s (s.takeAbandon p q n) := by
  unfold State.takeAbandon
  split
  · exact .refuse s p q _
  · exact .reply p q _ _ ((Tame.abandonHunt _).blocks s).slotsKept

/-- A request that stages no change leaves the slots (R172). -/
theorem carryOut_takes (hp : (s.port p).inProgress = none) (q : Byte) (r : Request) : Takes p s (s.carryOut p q r) := by
  have hself : SlotsKept s s := ⟨rfl, fun _ => rfl⟩
  have hrefuse : ∀ a, SlotsKept s (s.refuse p q a) := SlotsKept.refuse s p q
  have hstage : ∀ c, Takes p s (s.stageChange p q c) := stageChange_takes hp q
  cases r with
  | startTree tree => exact takeStartTree_slots.takes hp
  | stopTree tree => exact takeStopTree_slots.takes hp
  | setTree tree setting value => exact takeSetTree_takes hp setting value
  | admitHome serial tree c pk w =>
    refine SlotsKept.takes ?_ hp
    simp only [State.carryOut, State.takeAdmit]
    split
    · exact hrefuse _
    · split
      · exact hrefuse _
      · split
        · exact hrefuse _
        · exact .reply p q _ _ (.of_ports rfl rfl)
  | strike serial =>
    refine SlotsKept.takes ?_ hp
    simp only [State.carryOut, State.takeStrike]
    split
    · exact hrefuse _
    · exact .reply p q _ _ (.of_ports rfl rfl)
  | setAdmissionMode mode =>
    refine SlotsKept.takes ?_ hp
    simp only [State.carryOut, State.takeSetAdmissionMode]
    split
    · exact .reply p q _ _ (.of_ports rfl rfl)
    · exact .reply p q _ _ (.of_ports rfl rfl)
    · exact hrefuse _
  | callsOn tree =>
    refine SlotsKept.takes ?_ hp
    simp only [State.carryOut, State.takeCalls]
    split
    · exact hrefuse _
    · exact .reply p q _ _ (.of_ports rfl rfl)
  | callsOff tree =>
    refine SlotsKept.takes ?_ hp
    simp only [State.carryOut, State.takeCalls]
    split
    · exact hrefuse _
    · exact .reply p q _ _ (.of_ports rfl rfl)
  | withdraw tree tag => exact takeWithdraw_takes hp
  | setAllocations l a v => exact takeSetAllocations_slots.takes hp
  | stall named =>
    refine SlotsKept.takes ?_ hp
    simp only [State.carryOut, State.takeStall]
    split
    · exact hrefuse _
    · exact .reply p q _ _ (.modPort _ (fun _ => rfl) hself)
  | unstall named =>
    refine SlotsKept.takes ?_ hp
    simp only [State.carryOut, State.takeStall]
    split
    · exact hrefuse _
    · exact .reply p q _ _ (.modPort _ (fun _ => rfl) hself)
  | setRoute kind named =>
    refine SlotsKept.takes ?_ hp
    simp only [State.carryOut, State.takeSetRoute]
    split
    · exact .reply p q _ _ (.of_ports rfl rfl)
    · exact hrefuse _
  | readTree tree =>
    refine SlotsKept.takes ?_ hp
    simp only [State.carryOut, State.takeReadTree]
    split
    · exact hrefuse _
    · exact .reply p q _ _ hself
  | setContract tree tag c pk w =>
    refine withHome_takes hp fun k e => ?_
    split
    · exact hstage _
    · exact (hrefuse _).takes hp
  | switchBand band =>
    simp only [State.carryOut, State.takeSwitchBand]
    split
    · exact (hrefuse _).takes hp
    · exact hstage _
  | closeInterval tree =>
    simp only [State.carryOut, State.takeClose]
    split
    · exact hstage _
    · split
      · exact (hrefuse _).takes hp
      · exact hstage _
  | takeRecords count =>
    refine SlotsKept.takes ?_ hp
    simp only [State.carryOut, State.takeTakeRecords]
    split
    · exact hrefuse _
    · exact .reply p q _ _ (.of_ports rfl rfl)
  | setWatch watch tree tag direction band threshold action => exact takeSetWatch_slots.takes hp
  | clearWatch watch =>
    refine SlotsKept.takes ?_ hp
    simp only [State.carryOut, State.takeClearWatch]
    split
    · exact .reply p q _ _ (.of_ports rfl rfl)
    · exact hrefuse _
  | uncap tree tag => exact withHome_takes hp fun k e => hstage _
  | readMeters tree tag =>
    refine SlotsKept.takes ?_ hp
    simp only [State.carryOut, State.takeReadMeters]
    split
    · exact hrefuse _
    · split
      · exact hrefuse _
      · exact .reply p q _ _ hself
  | setJournalMark mark =>
    refine SlotsKept.takes ?_ hp
    simp only [State.carryOut, State.takeSetJournalMark]
    split
    · exact hrefuse _
    · exact .reply p q _ _ (.of_ports rfl rfl)
  | setLightLimit tree value scale =>
    refine SlotsKept.takes ?_ hp
    simp only [State.carryOut, State.takeSetLightLimit]
    split
    · exact hrefuse _
    · split
      · exact hrefuse _
      · exact .reply p q _ _ (.of_ports rfl rfl)
  | setConfirm tree m v mOver =>
    refine SlotsKept.takes ?_ hp
    simp only [State.carryOut, State.takeSetConfirm]
    split
    · exact hrefuse _
    · split
      · exact hrefuse _
      · exact .reply p q _ _ (.of_ports rfl rfl)
  | hunt tree => exact takeHunt_slots.takes hp
  | abandon tree => exact takeAbandon_slots.takes hp
  | fence tree tag => exact withHome_takes hp fun k e => hstage _
  | release tree tag => exact withHome_takes hp fun k e => hstage _
  | readLight tree =>
    refine SlotsKept.takes ?_ hp
    simp only [State.carryOut, State.takeReadLight]
    split
    · exact hrefuse _
    · exact .reply p q _ _ hself
  | readRoster tree firstTag count =>
    refine SlotsKept.takes ?_ hp
    simp only [State.carryOut, State.takeReadRoster]
    split
    · exact hrefuse _
    · split
      · exact hrefuse _
      · exact .reply p q _ _ hself
  | fetchNotices count =>
    refine SlotsKept.takes ?_ hp
    simp only [State.carryOut, State.takeFetchNotices]
    split
    · exact hrefuse _
    · exact .reply p q _ _ (.modPort p (fun _ => rfl) hself)
  | setThreshold level =>
    refine SlotsKept.takes ?_ hp
    simp only [State.carryOut, State.takeSetThreshold]
    split
    · exact hrefuse _
    · exact .reply p q _ _ (.modPort p (fun _ => rfl) hself)
  | setHoldLimit limit =>
    refine SlotsKept.takes ?_ hp
    simp only [State.carryOut, State.takeSetHoldLimit]
    split
    · exact hrefuse _
    · exact .reply p q _ _ (.modPort p (fun _ => rfl) hself)

theorem take_takes (hp : (s.port p).inProgress = none) (a : Arrived) : Takes p s (s.take p a) := by
  unfold State.take
  split
  · have hdiscards : SlotsKept s (s.takePortReset p a.seq) := by
      simp only [State.takePortReset, hp]
      refine .reply p a.seq _ _ ⟨rfl, fun j => ?_⟩
      rw [State.modPort_apply]
      split
      · rename_i hj
        rw [hj, hp]
      · rfl
    exact hdiscards.takes hp
  · exact (SlotsKept.refuse s p _ _).takes hp
  · split
    · exact carryOut_takes hp a.seq _
    · exact (SlotsKept.refuse s p _ _).takes hp

theorem takeWaiting_takes (hp : (s.port p).inProgress = none) : Takes p s (s.takeWaiting p) := by
  unfold State.takeWaiting
  split
  · rename_i a _ _
    have hempty : SlotsKept s (s.modPort p fun x => { x with waiting := none }) := .modPort p (fun _ => rfl) ⟨rfl, fun _ => rfl⟩
    obtain ⟨hround, hothers, hown⟩ := take_takes ((hempty.slots p).trans hp) a
    refine ⟨hround, fun j hj => (hothers j hj).trans (hempty.slots j), ?_⟩
    rw [State.modPort_port] at hown
    exact hown
  · exact SlotsKept.takes ⟨rfl, fun _ => rfl⟩ hp

end Sys2Proof.Machine
end

section
/-! PROOFS. A request that a port holds at a cut: it enters, fails its booking, is held on or times out (O44). -/

namespace Sys2Proof.Machine

variable {s s' u : State} {k : TreeId} {p p' j : Port} {tag n : Nat} {e : Entry} {h h' : Held} {v : Contract}

/-! ## The held requests of a cut (R117, R118) -/

/-- One port alone holds a request. -/
structure HoldsAlone (s : State) (p : Port) (h : Held) : Prop where
  own : (s.port p).inProgress = some h
  others : ∀ j, j ≠ p → (s.port j).inProgress = none

theorem HoldsAlone.heldOrder (hh : HoldsAlone s p h) : s.heldOrder = [p] := by
  have hown := hh.own
  have hothers := hh.others
  cases p with
  | line => simp [State.heldOrder, allPorts, hown, hothers .accounting nofun, hothers .supervisor nofun, insertTicket]
  | accounting => simp [State.heldOrder, allPorts, hown, hothers .line nofun, hothers .supervisor nofun, insertTicket]
  | supervisor => simp [State.heldOrder, allPorts, hown, hothers .line nofun, hothers .accounting nofun, insertTicket]

theorem foldl_expireHeld_of_waits (hw : ∀ j, s.expireHeld j = s) (l : List Port) : l.foldl State.expireHeld s = s := by
  induction l with
  | nil => rfl
  | cons j rest ih => rw [List.foldl_cons, hw, ih]

/-- The hold limits touch the one port that holds a request. -/
theorem foldl_expireHeld_of_one (hothers : ∀ j, j ≠ p → (s.port j).inProgress = none)
    (hafter : ∀ j, j ≠ p → ((s.expireHeld p).port j).inProgress = none) :
    allPorts.foldl State.expireHeld s = s.expireHeld p := by
  have hbefore : ∀ j, j ≠ p → s.expireHeld j = s := fun j hj => State.expireHeld_of_free (hothers j hj)
  have hafter : ∀ j, j ≠ p → (s.expireHeld p).expireHeld j = s.expireHeld p := fun j hj => State.expireHeld_of_free (hafter j hj)
  cases p with
  | line =>
    simp only [allPorts, List.foldl_cons, List.foldl_nil, hafter .accounting nofun, hafter .supervisor nofun]
  | accounting =>
    simp only [allPorts, List.foldl_cons, List.foldl_nil, hbefore .line nofun, hafter .supervisor nofun]
  | supervisor =>
    simp only [allPorts, List.foldl_cons, List.foldl_nil, hbefore .line nofun, hbefore .accounting nofun]

theorem State.heldExpired_iff (hp : (s.port p).inProgress = some h) :
    s.heldExpired p = true ↔ ∃ limit, (s.port p).holdLimit = some limit ∧ limit ≤ (s.round - h.roundTaken).toNat := by
  unfold State.heldExpired
  rw [hp]
  cases (s.port p).holdLimit with
  | none => simp
  | some limit =>
    simp only [Option.some.injEq, exists_eq_left', roundsForward]
    exact decide_eq_true_iff

theorem State.expireHeld_of_expired (hp : (s.port p).inProgress = some h) (he : s.heldExpired p = true) :
    s.expireHeld p = (((s.freeSlot p).dropHeld h).reply p h.seq .heldTooLong .nothing).takeWaiting p := by
  simp only [State.expireHeld, hp, he, if_true]
  rfl

theorem State.expireHeld_of_waits (he : ¬ s.heldExpired p = true) : s.expireHeld p = s := by
  unfold State.expireHeld
  split
  · rfl
  · exact if_neg he

theorem State.offerHeld_of_shut (hm : ¬ s.mayEnter p = true) : s.offerHeld p = s := by
  unfold State.offerHeld
  split
  · rfl
  · exact if_neg hm

theorem State.offerHeld_of_enters (hp : (s.port p).inProgress = some h) (hm : s.mayEnter p = true)
    (hb : (s.freeSlot p).bookingPasses h.change h.roundTaken = true) :
    s.offerHeld p = (((s.freeSlot p).enterQueue p h.change h.roundTaken).reply p h.seq .staged .nothing).takeWaiting p := by
  simp only [State.offerHeld, hp, hm, hb, if_true]

theorem State.offerHeld_of_overbook (hp : (s.port p).inProgress = some h) (hm : s.mayEnter p = true)
    (hb : (s.freeSlot p).bookingPasses h.change h.roundTaken = false) :
    s.offerHeld p = ((s.freeSlot p).reply p h.seq .overbook .nothing).takeWaiting p := by
  simp only [State.offerHeld, hp, hm, hb, if_true, Bool.false_eq_true, if_false]
  rfl

theorem State.takeWaiting_of_none (hw : (s.port p).waiting = none) : s.takeWaiting p = s := by
  unfold State.takeWaiting
  split
  · rename_i a _ hsome
    rw [hw] at hsome
    cases hsome
  · rfl

theorem State.takeWaiting_of_some {a : Arrived} (hp : (s.port p).inProgress = none) (hw : (s.port p).waiting = some a) :
    s.takeWaiting p = (s.setPort p { s.port p with waiting := none }).take p a := by
  unfold State.takeWaiting
  split
  · rename_i b _ hsome
    rw [hw] at hsome
    cases hsome
    rfl
  · rename_i hno
    exact absurd hw (hno a hp)

/-! ## The slot of a held request is freed -/

/-- A port's in-progress slot is freed, and nothing else of the slots changes. -/
structure SlotFreed (s : State) (p : Port) (u : State) : Prop where
  own : (u.port p).inProgress = none
  waiting : (u.port p).waiting = (s.port p).waiting
  limit : (u.port p).holdLimit = (s.port p).holdLimit
  others : ∀ j, j ≠ p → (u.port j).inProgress = (s.port j).inProgress
  tickets : u.tickets = s.tickets
  round : u.round = s.round

theorem slotFreed_of_reply {x : State} (hports : x.ports = (s.freeSlot p).ports) (ht : x.tickets = s.tickets) (hr : x.round = s.round)
    (q : Byte) (a : Status) : SlotFreed s p (x.reply p q a .nothing) := by
  have hport : ∀ j, x.port j = (s.freeSlot p).port j := fun j => congrArg (Trio.get · j) hports
  have hown : x.port p = { s.port p with inProgress := none } := (hport p).trans (State.modPort_port ..)
  refine ⟨?_, ?_, ?_, fun j hj => ?_, ht, hr⟩
  · rw [State.reply_port, hown]
  · rw [State.reply_port, hown]
  · rw [State.reply_port, hown]
  · rw [State.reply_port_ne x q a .nothing hj, hport, State.freeSlot, State.modPort_port_ne _ _ hj]

/-- Once the slot is freed the waiting request is taken: what the port then holds is from this round and not the request it held
before. -/
theorem SlotFreed.takes (hu : SlotFreed s p u) (ht : h.ticket < s.tickets) :
    (∀ j, j ≠ p → ((u.takeWaiting p).port j).inProgress = (s.port j).inProgress) ∧
    ((u.takeWaiting p).port p).inProgress ≠ some h ∧
    ((s.port p).holdLimit ≠ some 0 → ¬ (u.takeWaiting p).heldExpired p = true) := by
  obtain ⟨hround, hothers, hown⟩ := takeWaiting_takes hu.own
  refine ⟨fun j hj => (hothers j hj).trans (hu.others j hj), fun hc => ?_, fun hl he => ?_⟩
  · obtain hnone | ⟨x, hx, -, hticket, -⟩ := hown
    · rw [hnone] at hc
      cases hc
    · rw [hx] at hc
      cases hc
      rw [hticket, hu.tickets] at ht
      exact Nat.lt_irrefl _ ht
  · obtain hnone | ⟨x, hx, htaken, -, hlimit⟩ := hown
    · simp [State.heldExpired, hnone] at he
    · obtain ⟨limit, hsome, hle⟩ := (State.heldExpired_iff hx).1 he
      rw [htaken, hround, BitVec.sub_self] at hle
      rw [hlimit, hu.limit] at hsome
      exact hl (hsome.trans (congrArg some (Nat.le_zero.1 hle)))

/-! ## The cut with one request held -/

section
variable (hcut : s.cutTaken = false) (hq : s.queue = []) (hh : HoldsAlone s p h)
include hq

theorem State.passed_of_idle : s.passed = { s with cutTaken := true } := State.pass_of_empty hq

include hh

theorem State.offered_of_alone : s.offered = State.offerHeld { s with cutTaken := true } p := by
  have hheld : HoldsAlone { s with cutTaken := true } p h := ⟨hh.own, hh.others⟩
  rw [State.offered, State.passed_of_idle hq, hheld.heldOrder]
  rfl

include hcut

/-- A held request that leaves its slot by the offer (R117). -/
theorem cut_of_offered (hu : SlotFreed s p u) (ht : h.ticket < s.tickets) (hl : (s.port p).holdLimit ≠ some 0)
    (hoffer : State.offerHeld { s with cutTaken := true } p = u.takeWaiting p) :
    s.takeCut = allFour.foldl State.buildPlan (u.takeWaiting p) ∧ s.heldEnters p = true ∧ s.heldTooLong p = false := by
  have hoffered : s.offered = u.takeWaiting p := (State.offered_of_alone hq hh).trans hoffer
  obtain ⟨hothers, hown, hexpired⟩ := hu.takes ht
  have hopen : s.openCut = u.takeWaiting p := by
    rw [State.openCut, hoffered]
    refine foldl_expireHeld_of_waits (fun j => ?_) allPorts
    by_cases hj : j = p
    · rw [hj]
      exact State.expireHeld_of_waits (hexpired hl)
    · exact State.expireHeld_of_free ((hothers j hj).trans (hh.others j hj))
  have hheld : (s.passed.port p).inProgress = some h := by
    rw [State.passed_of_idle hq]
    exact hh.own
  refine ⟨by rw [State.takeCut_open _ hcut, hopen], ?_, ?_⟩
  · simp only [State.heldEnters, hheld, Option.isSome_some, Bool.true_and, decide_eq_true_eq, hoffered]
    exact hown
  · simp only [State.heldTooLong, hopen, hoffered, ne_eq, not_true_eq_false, decide_false, Bool.and_false]

/-- A held request that its port does not let enter (R117). -/
theorem cut_of_shut (hshut : State.offerHeld { s with cutTaken := true } p = { s with cutTaken := true }) :
    s.heldEnters p = false ∧ (¬ s.heldExpired p = true →
      s.takeCut = allFour.foldl State.buildPlan { s with cutTaken := true } ∧ s.heldTooLong p = false) := by
  have hoffered : s.offered = { s with cutTaken := true } := (State.offered_of_alone hq hh).trans hshut
  refine ⟨?_, fun he => ?_⟩
  · simp only [State.heldEnters, hoffered, State.passed_of_idle hq, ne_eq, not_true_eq_false, decide_false, Bool.and_false]
  · have hopen : s.openCut = s.offered := by
      refine foldl_expireHeld_of_waits (fun j => ?_) allPorts
      rw [hoffered]
      by_cases hj : j = p
      · rw [hj]
        exact State.expireHeld_of_waits he
      · exact State.expireHeld_of_free (hh.others j hj)
    refine ⟨by rw [State.takeCut_open _ hcut, hopen, hoffered], ?_⟩
    simp only [State.heldTooLong, hopen, ne_eq, not_true_eq_false, decide_false, Bool.and_false]

/-- A held request whose hold limit has expired (R118). -/
theorem cut_of_expired (hu : SlotFreed s p u) (ht : h.ticket < s.tickets)
    (hshut : State.offerHeld { s with cutTaken := true } p = { s with cutTaken := true })
    (hexpire : State.expireHeld { s with cutTaken := true } p = u.takeWaiting p) :
    s.takeCut = allFour.foldl State.buildPlan (u.takeWaiting p) ∧ s.heldTooLong p = true := by
  have hoffered : s.offered = { s with cutTaken := true } := (State.offered_of_alone hq hh).trans hshut
  obtain ⟨hothers, hown, -⟩ := hu.takes ht
  have hopen : s.openCut = u.takeWaiting p := by
    rw [State.openCut, hoffered, foldl_expireHeld_of_one (s := { s with cutTaken := true }) (p := p) hh.others, hexpire]
    rw [hexpire]
    exact fun j hj => (hothers j hj).trans (hh.others j hj)
  have hheld : (s.offered.port p).inProgress = some h := by
    rw [hoffered]
    exact hh.own
  refine ⟨by rw [State.takeCut_open _ hcut, hopen], ?_⟩
  simp only [State.heldTooLong, hheld, Option.isSome_some, Bool.true_and, decide_eq_true_eq, hopen]
  exact hown

end

/-! ## What a held change books as it enters (R109, R112) -/

/-- The entry of the queue that a held request becomes. -/
def Held.queued (h : Held) (p : Port) : ChangeEntry :=
  { origin := p, change := h.change, roundTaken := h.roundTaken, voided := false }

/-- The part with a held request in the queue, before what it books. -/
def State.withHeld (s : State) (p : Port) (h : Held) : State := { s.freeSlot p with queue := [h.queued p] }

/-- A change that is no CONTRACT and no tree setting books nothing as it enters. -/
theorem enterHeld_unbooked (hc : ∀ k tag v, h.change ≠ .contract k tag v) (ht : ∀ k n v, h.change ≠ .treeSetting k n v) :
    (s.freeSlot p).enterQueue p h.change h.roundTaken =
        { s.freeSlot p with queue := (s.freeSlot p).queue ++ [h.queued p] } ∧
      (s.freeSlot p).bookingPasses h.change h.roundTaken = true := by
  cases hchange : h.change with
  | contract k tag v => exact absurd hchange (hc k tag v)
  | treeSetting k name v => exact absurd hchange (ht k name v)
  | _ => exact ⟨by rw [Held.queued, hchange]; rfl, rfl⟩

section
variable (hq : s.queue = [])
include hq

theorem freeSlot_queue : (s.freeSlot p).queue ++ [h.queued p] = [h.queued p] :=
  (congrArg (· ++ [h.queued p]) hq).trans (List.nil_append _)

theorem enterHeld_plain (hc : ∀ k tag v, h.change ≠ .contract k tag v) (ht : ∀ k n v, h.change ≠ .treeSetting k n v) :
    (s.freeSlot p).enterQueue p h.change h.roundTaken = s.withHeld p h ∧
      (s.freeSlot p).bookingPasses h.change h.roundTaken = true := by
  rw [State.withHeld, ← freeSlot_queue (p := p) (h := h) hq]
  exact enterHeld_unbooked hc ht

theorem enterHeld_setting {name : SettingName} {w : Nat} (hc : h.change = .treeSetting k name w)
    (hn : name ∈ [SettingName.minBurst, .kCall, .kDark, .poll, .silence, .defaultPeak]) :
    (s.freeSlot p).enterQueue p h.change h.roundTaken = s.withHeld p h ∧
      (s.freeSlot p).bookingPasses h.change h.roundTaken = true := by
  have hqueue := freeSlot_queue (p := p) (h := h) hq
  rw [State.withHeld, ← hqueue, Held.queued, hc]
  simp only [List.mem_cons, List.not_mem_nil, or_false] at hn
  obtain rfl | rfl | rfl | rfl | rfl | rfl := hn <;> exact ⟨rfl, rfl⟩

theorem enterHeld_wCall {w : Nat} (hc : h.change = .treeSetting k .wCall w) :
    (s.freeSlot p).enterQueue p h.change h.roundTaken = (s.withHeld p h).setTree k { s.tree k with bookedCall := w } ∧
      (s.freeSlot p).bookingPasses h.change h.roundTaken = decide (s.bookingSum k + w + (s.tree k).bookedDark ≤ 1875) := by
  have hqueue := freeSlot_queue (p := p) (h := h) hq
  rw [State.withHeld, ← hqueue, Held.queued, hc]
  exact ⟨rfl, rfl⟩

theorem enterHeld_wDark {w : Nat} (hc : h.change = .treeSetting k .wDark w) :
    (s.freeSlot p).enterQueue p h.change h.roundTaken = (s.withHeld p h).setTree k { s.tree k with bookedDark := w } ∧
      (s.freeSlot p).bookingPasses h.change h.roundTaken = decide (s.bookingSum k + (s.tree k).bookedCall + w ≤ 1875) := by
  have hqueue := freeSlot_queue (p := p) (h := h) hq
  rw [State.withHeld, ← hqueue, Held.queued, hc]
  exact ⟨rfl, rfl⟩

theorem enterHeld_contract (hc : h.change = .contract k tag v) :
    (s.freeSlot p).enterQueue p h.change h.roundTaken = (s.withHeld p h).rebook k tag := by
  have hqueue := freeSlot_queue (p := p) (h := h) hq
  rw [State.withHeld, ← hqueue, Held.queued, hc]
  rfl

end

theorem queuedRates_held (hc : h.change = .contract k tag v) (r : Round) :
    queuedRates [h.queued p] k tag r = if laterThan r h.roundTaken = false then [v.c] else [] := by
  by_cases hl : laterThan r h.roundTaken = false <;> simp [queuedRates, Held.queued, hc, hl]

theorem enterHeld_contract_of_vacant (hq : s.queue = []) (hw : Store.Wf s.roster) (hc : h.change = .contract k tag v)
    (he : s.entry k tag = none) :
    (s.freeSlot p).enterQueue p h.change h.roundTaken = s.withHeld p h ∧
      (s.freeSlot p).bookingPasses h.change h.roundTaken = true := by
  refine ⟨(enterHeld_contract hq hc).trans (State.rebook_of_vacant (s := s.withHeld p h) hw he), ?_⟩
  have he' : (s.freeSlot p).entry k tag = none := he
  simp only [State.bookingPasses, hc, he']

theorem enterHeld_contract_of_entry (hq : s.queue = []) (hw : Store.Wf s.roster) (hc : h.change = .contract k tag v)
    (he : s.entry k tag = some e) :
    (s.freeSlot p).enterQueue p h.change h.roundTaken = (s.withHeld p h).setEntry k tag { e with
      booked := if laterThan e.occupied h.roundTaken = false then max e.contract.c v.c else e.contract.c } ∧
    (s.freeSlot p).bookingPasses h.change h.roundTaken = (laterThan e.occupied h.roundTaken ||
      decide (s.bookingSum k - bookingTerm e.booked (s.tree k).settings.overhead +
        bookingTerm (max e.contract.c v.c) (s.tree k).settings.overhead + (s.tree k).bookedCall + (s.tree k).bookedDark ≤ 1875)) := by
  have hrates : queuedRates (s.withHeld p h).queue k tag e.occupied = _ := queuedRates_held hc e.occupied
  have hbooked : bookedFor e.contract.c (queuedRates (s.withHeld p h).queue k tag e.occupied) =
      if laterThan e.occupied h.roundTaken = false then max e.contract.c v.c else e.contract.c := by
    rw [hrates]
    split <;> rfl
  refine ⟨?_, ?_⟩
  · rw [enterHeld_contract hq hc, State.rebook_of_entry (s := s.withHeld p h) hw he, hbooked]
  · have he' : (s.freeSlot p).entry k tag = some e := he
    have hnone : queuedRates (s.freeSlot p).queue k tag e.occupied = [] := by
      rw [show (s.freeSlot p).queue = [] from hq]
      rfl
    simp only [State.bookingPasses, hc, he', State.bookingIfContract, hnone]
    rfl

/-! ## Two held requests (R117) -/

/-- Of two ports that hold a request, the one that took it first comes first. -/
theorem heldOrder_of_two (hne : p ≠ p') (hp : (s.port p).inProgress = some h) (hp' : (s.port p').inProgress = some h')
    (hothers : ∀ j, j ≠ p → j ≠ p' → (s.port j).inProgress = none) (ht : h.ticket < h'.ticket) : s.heldOrder = [p, p'] := by
  have hports : ∀ j, (s.port j).inProgress = if j = p then some h else if j = p' then some h' else none := fun j => by
    split
    · rwa [‹j = p›]
    · split
      · rwa [‹j = p'›]
      · exact hothers j ‹_› ‹_›
  have hlater : ¬ h'.ticket ≤ h.ticket := Nat.not_le.2 ht
  simp only [State.heldOrder, allPorts, List.foldl_cons, List.foldl_nil, hports]
  cases p <;> cases p' <;> simp [insertTicket, hlater, Nat.le_of_lt ht] at hne ⊢

/-- The part once a held request has entered the queue, where it books nothing and nothing waits behind it. -/
def State.entered (s : State) (p : Port) (h : Held) : State :=
  State.reply { s.freeSlot p with queue := s.queue ++ [h.queued p] } p h.seq .staged .nothing

theorem State.entered_queue (s : State) (p : Port) (h : Held) : (s.entered p h).queue = s.queue ++ [h.queued p] := rfl

theorem State.entered_port_ne (s : State) (h : Held) (hj : j ≠ p) : (s.entered p h).port j = s.port j := by
  have hfree : (s.freeSlot p).port j = s.port j := State.modPort_port_ne s _ hj
  rw [State.entered, State.reply_port_ne _ _ _ _ hj]
  exact hfree

theorem State.entered_inProgress (s : State) (p : Port) (h : Held) : ((s.entered p h).port p).inProgress = none := by
  have hfree : ((s.freeSlot p).port p).inProgress = none := s.freeSlot_inProgress p
  rw [State.entered, State.reply_port]
  exact hfree

theorem offerHeld_of_unbooked (hp : (s.port p).inProgress = some h) (hw : (s.port p).waiting = none) (hm : s.mayEnter p = true)
    (hc : ∀ k tag v, h.change ≠ .contract k tag v) (ht : ∀ k n v, h.change ≠ .treeSetting k n v) :
    s.offerHeld p = s.entered p h := by
  obtain ⟨hqueue, hpasses⟩ := enterHeld_unbooked (s := s) (p := p) hc ht
  have hwaiting : ((s.freeSlot p).port p).waiting = none := (congrArg PortState.waiting (State.modPort_port ..)).trans hw
  rw [State.offerHeld_of_enters hp hm hpasses, hqueue]
  refine State.takeWaiting_of_none ?_
  rw [State.reply_port]
  exact hwaiting

/-- Two held requests that book nothing both enter, in their order. -/
theorem offers_of_two (hq : s.queue = []) (hne : p ≠ p') (hp : (s.port p).inProgress = some h)
    (hp' : (s.port p').inProgress = some h') (hothers : ∀ j, j ≠ p → j ≠ p' → (s.port j).inProgress = none)
    (hw : ∀ j, (s.port j).waiting = none) (ht : h.ticket < h'.ticket) (hm : (s.port p).stalled = false ∧ 0 < (s.port p).allocation)
    (hm' : (s.port p').stalled = false ∧ 0 < (s.port p').allocation)
    (hc : ∀ k tag v, h.change ≠ .contract k tag v ∧ h'.change ≠ .contract k tag v)
    (hs : ∀ k n v, h.change ≠ .treeSetting k n v ∧ h'.change ≠ .treeSetting k n v) :
    s.heldOrder.foldl State.offerHeld s = (s.entered p h).entered p' h' := by
  have hopen : s.mayEnter p = true := by
    rw [State.mayEnter_iff, QueueOpen, hq]
    exact hm
  have hport : (s.entered p h).port p' = s.port p' := s.entered_port_ne h (Ne.symm hne)
  have hopen' : (s.entered p h).mayEnter p' = true := by
    have hnone : ((s.entered p h).queue.filter fun x => decide (x.origin = p')) = [] := by
      rw [State.entered_queue, hq]
      simp [Held.queued, hne]
    rw [State.mayEnter_iff, QueueOpen, hnone, hport]
    exact hm'
  rw [heldOrder_of_two hne hp hp' hothers ht, List.foldl_cons, List.foldl_cons, List.foldl_nil,
    offerHeld_of_unbooked hp (hw p) hopen (fun k tag v => (hc k tag v).1) fun k n v => (hs k n v).1]
  exact offerHeld_of_unbooked (hport ▸ hp') (hport ▸ hw p') hopen' (fun k tag v => (hc k tag v).2) fun k n v => (hs k n v).2

/-- The queue after a cut on which two ports hold requests that book nothing. -/
theorem takeCut_of_two (hcut : s.cutTaken = false) (hq : s.queue = []) (hne : p ≠ p') (hp : (s.port p).inProgress = some h)
    (hp' : (s.port p').inProgress = some h') (hothers : ∀ j, j ≠ p → j ≠ p' → (s.port j).inProgress = none)
    (hw : ∀ j, (s.port j).waiting = none) (ht : h.ticket < h'.ticket) (hm : (s.port p).stalled = false ∧ 0 < (s.port p).allocation)
    (hm' : (s.port p').stalled = false ∧ 0 < (s.port p').allocation)
    (hc : ∀ k tag v, h.change ≠ .contract k tag v ∧ h'.change ≠ .contract k tag v)
    (hs : ∀ k n v, h.change ≠ .treeSetting k n v ∧ h'.change ≠ .treeSetting k n v) :
    s.takeCut.queue = [h.queued p, h'.queued p'] := by
  have hoffered : s.offered = (State.entered { s with cutTaken := true } p h).entered p' h' := by
    rw [State.offered, State.passed_of_idle hq]
    exact offers_of_two (s := { s with cutTaken := true }) hq hne hp hp' hothers hw ht hm hm' hc hs
  have hqueue : s.offered.queue = [h.queued p, h'.queued p'] := by
    rw [hoffered, State.entered_queue, State.entered_queue, hq]
    rfl
  have hnone : ∀ j, (s.offered.port j).inProgress = none := fun j => by
    rw [hoffered]
    by_cases hj' : j = p'
    · rw [hj', State.entered_inProgress]
    · rw [State.entered_port_ne _ _ hj']
      by_cases hj : j = p
      · rw [hj, State.entered_inProgress]
      · rw [State.entered_port_ne _ _ hj]
        exact hothers j hj hj'
  have hopenCut : s.openCut = s.offered :=
    foldl_expireHeld_of_waits (fun j => State.expireHeld_of_free (hnone j)) allPorts
  rw [State.takeCut_open _ hcut, hopenCut]
  exact (congrArg State.queue (builds_frame s.offered)).trans hqueue

/-- Settles O44: the offer and the hold limit touch the port that holds the request, and what its waiting request then holds is
from this round. -/
theorem heldRequestAtCut : Obligations.HeldRequestAtCut := by
  refine ⟨?_, ?_⟩
  · intro s p h hcut hq hown hothers hticket hlimit hcanonical cut freed ended built q queued isOpen leaves enters overbook
    have hh : HoldsAlone s p h := ⟨hown, hothers⟩
    have hended : ∀ u, SlotFreed s p u → u.takeWaiting p = ended u := fun u hu => by
      cases hw : (u.port p).waiting with
      | none =>
        rw [State.takeWaiting_of_none hw]
        simp only [ended, ← hu.waiting, hw]
      | some a =>
        rw [State.takeWaiting_of_some hu.own hw]
        simp only [ended, ← hu.waiting, hw]
    have hleaves : ∀ u, SlotFreed s p u → State.offerHeld cut p = u.takeWaiting p → leaves u := fun u hu hoffer => by
      obtain ⟨htake, henters, hlong⟩ := cut_of_offered hcut hq hh hu hticket hlimit hoffer
      rw [hended u hu] at htake
      exact ⟨congrArg Host.Outcome.next htake, exec_of_due rfl henters, exec_of_not_due (Bool.eq_false_iff.1 hlong)⟩
    have hfreed : ∀ x : State, x.ports = freed.ports → x.tickets = s.tickets → x.round = s.round →
        ∀ a, SlotFreed s p (x.reply p h.seq a .nothing) := fun x hports ht hr a => slotFreed_of_reply (s := s) hports ht hr h.seq a
    have hmay : isOpen ↔ cut.mayEnter p = true := by
      have hnone : (cut.queue.filter fun x => decide (x.origin = p)).length = 0 := by simp only [cut, hq, List.filter_nil, List.length_nil]
      rw [State.mayEnter_iff, QueueOpen, hnone]
      exact Iff.rfl
    have henters : ∀ u, isOpen → (State.freeSlot cut p).enterQueue p h.change h.roundTaken = u ∧
        (State.freeSlot cut p).bookingPasses h.change h.roundTaken = true → enters u := fun u ho ⟨hu, hb⟩ => by
      subst hu
      refine hleaves _ (hfreed _ ?_ ?_ ?_ .staged) (State.offerHeld_of_enters hown (hmay.1 ho) hb)
      all_goals
        rw [State.enterQueue_eq]
        rfl
    have hfails : isOpen → (State.freeSlot cut p).bookingPasses h.change h.roundTaken = false → overbook := fun ho hb =>
      hleaves _ (hfreed _ rfl rfl rfl .overbook) (State.offerHeld_of_overbook hown (hmay.1 ho) hb)
    have hbooks : ∀ (u : State) (fits : Prop) [Decidable fits], isOpen →
        (State.freeSlot cut p).enterQueue p h.change h.roundTaken = u ∧
          (State.freeSlot cut p).bookingPasses h.change h.roundTaken = decide fits → if fits then enters u else overbook :=
      fun u fits _ ho ⟨hu, hb⟩ => by
        split
        · exact henters u ho ⟨hu, hb.trans (decide_eq_true ‹_›)⟩
        · exact hfails ho (hb.trans (decide_eq_false ‹_›))
    refine ⟨fun ho => ⟨fun hc ht => henters _ ho (enterHeld_plain (s := cut) hq hc ht), fun k name v hc =>
      ⟨fun hn => henters _ ho (enterHeld_setting (s := cut) hq hc hn), fun hn => ?_, fun hn => ?_⟩, fun k tag v hc htag =>
      ⟨fun he => henters _ ho (enterHeld_contract_of_vacant (s := cut) hq hcanonical.1 hc he),
        fun e he => ⟨fun hl => ?_, fun hl => ?_⟩⟩⟩, fun ho => ?_⟩
    · subst hn
      exact hbooks _ _ ho (enterHeld_wCall (s := cut) hq hc)
    · subst hn
      exact hbooks _ _ ho (enterHeld_wDark (s := cut) hq hc)
    · obtain ⟨hu, hb⟩ := enterHeld_contract_of_entry (s := cut) (p := p) hq hcanonical.1 hc he
      rw [hl] at hu hb
      exact henters _ ho ⟨hu, hb⟩
    · intro H term others
      obtain ⟨hu, hb⟩ := enterHeld_contract_of_entry (s := cut) (p := p) hq hcanonical.1 hc he
      rw [hl] at hu hb
      exact hbooks _ _ ho ⟨hu, hb⟩
    · have hshut : State.offerHeld cut p = cut := State.offerHeld_of_shut (mt hmay.2 ho)
      obtain ⟨hent, hwaits⟩ := cut_of_shut hcut hq hh hshut
      refine ⟨exec_of_not_due (Bool.eq_false_iff.1 hent), fun hl => ?_, fun limit hlim hle => ?_⟩
      · have hunexpired : ¬ s.heldExpired p = true := fun he => by
          obtain ⟨limit, hsome, hle⟩ := (State.heldExpired_iff hown).1 he
          obtain hnone | ⟨limit', hsome', hlt⟩ := hl
          · rw [hnone] at hsome
            cases hsome
          · rw [hsome] at hsome'
            cases hsome'
            exact absurd hle (Nat.not_le.2 hlt)
        obtain ⟨htake, hlong⟩ := hwaits hunexpired
        exact ⟨congrArg Host.Outcome.next htake, exec_of_not_due (Bool.eq_false_iff.1 hlong)⟩
      · have hexpired : cut.heldExpired p = true := (State.heldExpired_iff (s := cut) hown).2 ⟨limit, hlim, hle⟩
        have hexpire := State.expireHeld_of_expired (s := cut) hown hexpired
        have hu : SlotFreed s p (((State.freeSlot cut p).dropHeld h).reply p h.seq .heldTooLong .nothing) := by
          refine hfreed _ ?_ ?_ ?_ .heldTooLong
          all_goals
            rw [State.dropHeld_eq]
            rfl
        obtain ⟨htake, hlong⟩ := cut_of_expired hcut hq hh hu hticket hshut hexpire
        rw [hended _ hu] at htake
        refine ⟨exec_of_due rfl hlong, fun hno => ?_, fun hyes => ?_⟩
        · have hdrop : (State.freeSlot cut p).dropHeld h = freed := by
            unfold State.dropHeld
            rw [if_neg]
            · rfl
            · cases hchange : h.change with
              | withdraw k tag => exact absurd hchange (hno k tag)
              | _ => exact Bool.false_ne_true
          rw [hdrop] at htake
          exact congrArg Host.Outcome.next htake
        · obtain ⟨k, tag, hchange⟩ := hyes
          have hdrop : (State.freeSlot cut p).dropHeld h = { freed with journal := { s.journal with booked := s.journal.booked - 1 } } := by
            rw [State.dropHeld, hchange]
            rfl
          rw [hdrop] at htake
          exact congrArg Host.Outcome.next htake
  · intro s t p p' h h' hcut hq hne hp hp' hothers hw ht hstalled halloc hstalled' halloc' hc hs hexec
    rw [exec_cut] at hexec
    cases hexec
    exact takeCut_of_two hcut hq hne hp hp' hothers hw ht ⟨hstalled, halloc⟩ ⟨hstalled', halloc'⟩ hc hs

end Sys2Proof.Machine
end
